-- ==== Sys2Proof/Word.lean ====
section
/-! DEFINITION. The widths of the values the block handles (spec 00_scope.md R6: every value is an
unsigned bit vector of a stated width; bit 0 is the least significant bit). -/

namespace Sys2Proof

/-- An 8-bit value: a sample of the control byte, a flag, a register byte, an opcode. -/
abbrev Byte := BitVec 8

/-- A 32-bit value: a selector, a data word, an output data word. -/
abbrev Word := BitVec 32

/-- A command word `cw[143:0]` (30_encoding.md R50). -/
abbrev CmdWord := BitVec 144

end Sys2Proof
end

