-- ==== Sys2Proof/Config.lean ====
section
/-! DEFINITION. The implementation parameters of 00_scope.md R4, and the one free value of the
model: what the environment puts on the accessor port (10_state.md R11). -/

namespace Sys2Proof.Config

/-- Width of the `bus` field of a command word (R50, R60). -/
abbrev BUS_W : Nat := 8
/-- Width of the `dev` field of a command word (R50, R60). -/
abbrev DEV_W : Nat := 5
/-- Width of the `fn` field of a command word (R50, R60). -/
abbrev FN_W : Nat := 3
/-- Width of the `addr` field and of `x[ADDR]`: `BUS_W + DEV_W + FN_W` (R13). -/
abbrev ADDR_W : Nat := 16
/-- Width of an InternalRegisterNumber (R100). -/
abbrev REG_W : Nat := 24

/-- The record of R4: every parameter of its table. Offsets are 8-bit values, so 'all offsets are
below 0x100' (R5) holds by type. -/
structure Params where
  /-- `CTRL_OFF`: the control/status byte. -/
  ctrlOff : Byte
  /-- `DOUT1_OFF`: output data word 1. -/
  dout1Off : Byte
  /-- `DOUT2_OFF`: output data word 2. -/
  dout2Off : Byte
  /-- `SEL_OFF`: the internal register selector. -/
  selOff : Byte
  /-- `DIN_OFF`: the input data word. -/
  dinOff : Byte
  /-- `READ_BUSY`. -/
  readBusy : Byte
  /-- `WRITE_BUSY`. -/
  writeBusy : Byte
  /-- `READ_BIT_FLAG`: the byte RDCMD acknowledges with. -/
  readBitFlag : Byte
  /-- `ABSENT_BYTE`. -/
  absentByte : Byte
  /-- `POLL_BUDGET`: sampling rounds of one poll. -/
  pollBudget : Nat
  /-- `FF_LIMIT`: all-ones samples that end a poll. -/
  ffLimit : Nat
  /-- `PAIRED_CONFIRM`, the OPEN parameter (D7): `false` is 0, `true` is 1. -/
  pairedConfirm : Bool
  /-- `DEBOUNCE`: consecutive idle samples needed for readiness. R4: the rules are written for 2. -/
  debounce : Nat
  /-- `BUS_W`. The command word of R50 is laid out for 8. -/
  busW : Nat
  /-- `DEV_W`. The command word of R50 is laid out for 5. -/
  devW : Nat
  /-- `FN_W`. The command word of R50 is laid out for 3. -/
  fnW : Nat
  /-- `ROUNDS_W`: width of the round counter. -/
  roundsW : Nat
  /-- `FFC_W`: width of the all-ones counter. -/
  ffcW : Nat
  deriving DecidableEq, Repr

/-- The value column of R4: the values this hardware takes. -/
def Params.hardware : Params where
  ctrlOff := 0xE0
  dout1Off := 0xF0
  dout2Off := 0xF4
  selOff := 0xF8
  dinOff := 0xFC
  readBusy := 0x01
  writeBusy := 0x02
  readBitFlag := 0x01
  absentByte := 0xFF
  pollBudget := 20000
  ffLimit := 10
  pairedConfirm := false
  debounce := 2
  busW := 8
  devW := 5
  fnW := 3
  roundsW := 16
  ffcW := 4

/-- What the environment shows on the accessor port's inputs at one step (10_state.md R23), and
one thing the block never sees. -/
structure AccPort where
  /-- `acc_done`: the transaction is answered. -/
  done : Bool
  /-- `acc_fail`: with `done`, AccessFailure. -/
  fail : Bool
  /-- `acc_rdata`. -/
  rdata : Word
  /-- Whether a write that failed, or that `Reset` abandoned, changed the device all the same:
  20_memory.md R33 and 93 U9, U10 admit both. -/
  reached : Bool
  deriving DecidableEq, Repr, Inhabited

/-- FREE VALUE (notes/assumptions/2.md). The environment's answer, indexed by how many times the
accessor port has been sampled. R11 puts no law on it, so nothing here gives it a value. -/
opaque accPort : Nat → AccPort

end Sys2Proof.Config
end

