-- ==== Sys2Proof/Syntax.lean ====
section
/-! DEFINITION. The command set: one constructor per row of spec/opcode_table.json
(30_encoding.md R52), with the operands of R53 and, after them, the fields that the format ignores
(R54): `Accept` loads those into latches as well (R51), so an instruction keeps them. -/

namespace Sys2Proof

open Config

/-- A DeviceAddress `bus:dev.fn` (R60). Every value is legal. -/
structure DevAddr where
  bus : BitVec BUS_W
  dev : BitVec DEV_W
  fn : BitVec FN_W
  deriving DecidableEq, Repr

/-- The six commands. Operands named `iReg`, `iA`, `iB`, `iC` are the contents of the fields
`reg`, `a`, `b`, `c` that the format ignores. -/
inductive Instr where
  /-- WAITRD, format A (R80). -/
  | waitrd (addr : DevAddr) (iReg : BitVec REG_W) (iA iB iC : Word)
  /-- WAITWR, format A (R81). -/
  | waitwr (addr : DevAddr) (iReg : BitVec REG_W) (iA iB iC : Word)
  /-- ISSUERD, format S (R92). -/
  | issuerd (addr : DevAddr) (selector data : Word) (iReg : BitVec REG_W) (iC : Word)
  /-- ISSUEWR, format S (R93). -/
  | issuewr (addr : DevAddr) (selector data : Word) (iReg : BitVec REG_W) (iC : Word)
  /-- RDCMD, format A (R106). -/
  | rdcmd (addr : DevAddr) (iReg : BitVec REG_W) (iA iB iC : Word)
  /-- WRCMD, format T (R102): no field is ignored. -/
  | wrcmd (addr : DevAddr) (regB0 regB1 regB2 : Byte) (dat0 dat1 dat2 : Word)
  deriving DecidableEq, Repr

end Sys2Proof
end

