-- ==== Sys2Proof/WellFormed.lean ====
section
/-! DEFINITION. Well-formedness: of a parameter record (00_scope.md R5; a model refuses a
configuration that breaks it), and of an instruction as an assembler writes it (30_encoding.md
R54: 0 in ignored fields). The block itself takes any value in an ignored field: every `Instr` has
an encoding and a meaning. -/

namespace Sys2Proof

open Config

/-- A byte with exactly one bit set. -/
def singleBit (v : Byte) : Bool :=
  [0x01, 0x02, 0x04, 0x08, 0x10, 0x20, 0x40, 0x80].contains v

/-- The five offsets of the register map (20_memory.md R31). -/
def Config.Params.offsets (p : Params) : List Byte :=
  [p.ctrlOff, p.dout1Off, p.dout2Off, p.selOff, p.dinOff]

/-- R5: `1 <= POLL_BUDGET < 2^ROUNDS_W`. -/
def Config.Params.budgetOk (p : Params) : Bool :=
  decide (1 ≤ p.pollBudget ∧ p.pollBudget < 2 ^ p.roundsW)

/-- R5: `1 <= FF_LIMIT < 2^FFC_W`. -/
def Config.Params.limitOk (p : Params) : Bool :=
  decide (1 ≤ p.ffLimit ∧ p.ffLimit < 2 ^ p.ffcW)

/-- R5: the five offsets are pairwise distinct. -/
def Config.Params.offsetsDistinct (p : Params) : Bool :=
  decide (p.offsets.Pairwise (· ≠ ·))

/-- R5: the four 32-bit offsets are multiples of 4. -/
def Config.Params.offsetsAligned (p : Params) : Bool :=
  [p.dout1Off, p.dout2Off, p.selOff, p.dinOff].all fun o => decide (o.toNat % 4 = 0)

/-- R5: `READ_BUSY` and `WRITE_BUSY` are distinct single-bit bytes. -/
def Config.Params.flagsOk (p : Params) : Bool :=
  singleBit p.readBusy && singleBit p.writeBusy && decide (p.readBusy ≠ p.writeBusy)

/-- R5: an absent-device sample is never an idle sample. -/
def Config.Params.absentBusy (p : Params) : Bool :=
  decide (p.absentByte &&& p.readBusy ≠ 0) && decide (p.absentByte &&& p.writeBusy ≠ 0)

/-- R5, whole. -/
def Config.Params.constraintsOk (p : Params) : Bool :=
  p.budgetOk && p.limitOk && p.offsetsDistinct && p.offsetsAligned && p.flagsOk && p.absentBusy

/-- The values that the rules themselves are written for: `DEBOUNCE` is 2 (R4), and the address
widths are those of the command word's layout (30_encoding.md R50). DEDUCED
(notes/assumptions/5.md). -/
def Config.Params.layoutOk (p : Params) : Bool :=
  decide (p.debounce = 2 ∧ p.busW = BUS_W ∧ p.devW = DEV_W ∧ p.fnW = FN_W)

/-- A configuration that the model runs. -/
def Config.Params.wellFormed (p : Params) : Bool := p.constraintsOk && p.layoutOk

/-- R54: the form an assembler writes, with 0 in every ignored field. -/
def Instr.wellFormed : Instr → Bool
  | .waitrd _ iReg iA iB iC => iReg == 0 && iA == 0 && iB == 0 && iC == 0
  | .waitwr _ iReg iA iB iC => iReg == 0 && iA == 0 && iB == 0 && iC == 0
  | .issuerd _ _ _ iReg iC => iReg == 0 && iC == 0
  | .issuewr _ _ _ iReg iC => iReg == 0 && iC == 0
  | .rdcmd _ iReg iA iB iC => iReg == 0 && iA == 0 && iB == 0 && iC == 0
  | .wrcmd _ _ _ _ _ _ _ => true

end Sys2Proof
end

