-- ==== Sys2Proof/Decode.lean ====
section
/-! DEFINITION. The command word (30_encoding.md R50 to R56, R60): its fields, the opcodes, the
decoder, the encoder, and the InternalRegisterNumber value function (42_sequences.md R100). -/

namespace Sys2Proof

open Config

/-- `cw[143:136]`, the opcode (R50). -/
def opField (cw : CmdWord) : Byte := cw.extractLsb' 136 8
/-- `cw[135:128]` (R50). -/
def busField (cw : CmdWord) : BitVec BUS_W := cw.extractLsb' 128 8
/-- `cw[127:123]` (R50). -/
def devField (cw : CmdWord) : BitVec DEV_W := cw.extractLsb' 123 5
/-- `cw[122:120]` (R50). -/
def fnField (cw : CmdWord) : BitVec FN_W := cw.extractLsb' 120 3
/-- `cw[135:120]`, `bus`, `dev` and `fn` as one field (R50). -/
def addrField (cw : CmdWord) : BitVec ADDR_W := cw.extractLsb' 120 16
/-- `cw[119:112]` (R50). -/
def b2Field (cw : CmdWord) : Byte := cw.extractLsb' 112 8
/-- `cw[111:104]` (R50). -/
def b1Field (cw : CmdWord) : Byte := cw.extractLsb' 104 8
/-- `cw[103:96]` (R50). -/
def b0Field (cw : CmdWord) : Byte := cw.extractLsb' 96 8
/-- `cw[119:96]`, `b2`, `b1` and `b0` as one field (R50, R55). -/
def regField (cw : CmdWord) : BitVec REG_W := cw.extractLsb' 96 24
/-- `cw[95:64]` (R50). -/
def aField (cw : CmdWord) : Word := cw.extractLsb' 64 32
/-- `cw[63:32]` (R50). -/
def bField (cw : CmdWord) : Word := cw.extractLsb' 32 32
/-- `cw[31:0]` (R50). -/
def cField (cw : CmdWord) : Word := cw.extractLsb' 0 32

/-- R52: the opcode of WAITRD. -/
def opWaitrd : Byte := 0x01
/-- R52: the opcode of WAITWR. -/
def opWaitwr : Byte := 0x02
/-- R52: the opcode of ISSUERD. -/
def opIssuerd : Byte := 0x05
/-- R52: the opcode of ISSUEWR. -/
def opIssuewr : Byte := 0x06
/-- R52: the opcode of RDCMD. -/
def opRdcmd : Byte := 0x09
/-- R52: the opcode of WRCMD. -/
def opWrcmd : Byte := 0x0A

/-- The six defined opcodes (R52); every other value of `op` is reserved (R56). -/
def definedOpcodes : List Byte := [opWaitrd, opWaitwr, opIssuerd, opIssuewr, opRdcmd, opWrcmd]

/-- The 16 bits of a DeviceAddress as the word holds them (R50, R60). -/
def DevAddr.bits (d : DevAddr) : BitVec ADDR_W := d.bus ++ d.dev ++ d.fn

/-- InternalRegisterNumber, `{b2, b1, b0}` (R100). -/
def internalRegisterNumber (b0 b1 b2 : Byte) : BitVec REG_W := b2 ++ b1 ++ b0

/-- The DeviceAddress of a word (R50, R60). -/
def devAddrOf (cw : CmdWord) : DevAddr := ⟨busField cw, devField cw, fnField cw⟩

/-- The opcode of an instruction (R52). -/
def Instr.opcode : Instr → Byte
  | .waitrd _ _ _ _ _ => opWaitrd
  | .waitwr _ _ _ _ _ => opWaitwr
  | .issuerd _ _ _ _ _ => opIssuerd
  | .issuewr _ _ _ _ _ => opIssuewr
  | .rdcmd _ _ _ _ _ => opRdcmd
  | .wrcmd _ _ _ _ _ _ _ => opWrcmd

/-- The mnemonic of R52. -/
def Instr.mnemonic : Instr → String
  | .waitrd _ _ _ _ _ => "WAITRD"
  | .waitwr _ _ _ _ _ => "WAITWR"
  | .issuerd _ _ _ _ _ => "ISSUERD"
  | .issuewr _ _ _ _ _ => "ISSUEWR"
  | .rdcmd _ _ _ _ _ => "RDCMD"
  | .wrcmd _ _ _ _ _ _ _ => "WRCMD"

/-- Why a word is no instruction. -/
inductive DecodeError where
  /-- R56: the opcode is none of the six. -/
  | reservedOpcode (op : Byte)
  deriving DecidableEq, Repr

/-- The decoder (R52, R53): the opcode alone selects the command. -/
def decode (cw : CmdWord) : Except DecodeError Instr :=
  let addr := devAddrOf cw
  let op := opField cw
  if op = opWaitrd then
    .ok (.waitrd addr (regField cw) (aField cw) (bField cw) (cField cw))
  else if op = opWaitwr then
    .ok (.waitwr addr (regField cw) (aField cw) (bField cw) (cField cw))
  else if op = opIssuerd then
    .ok (.issuerd addr (aField cw) (bField cw) (regField cw) (cField cw))
  else if op = opIssuewr then
    .ok (.issuewr addr (aField cw) (bField cw) (regField cw) (cField cw))
  else if op = opRdcmd then
    .ok (.rdcmd addr (regField cw) (aField cw) (bField cw) (cField cw))
  else if op = opWrcmd then
    .ok (.wrcmd addr (b0Field cw) (b1Field cw) (b2Field cw) (aField cw) (bField cw) (cField cw))
  else
    .error (.reservedOpcode op)

/-- A command word put together from its six groups of fields, most significant first (R50). -/
def packWord (op : Byte) (addr : BitVec ADDR_W) (reg : BitVec REG_W) (a b c : Word) : CmdWord :=
  op ++ addr ++ reg ++ a ++ b ++ c

/-- The encoder (R50, R52, R53). -/
def encode : Instr → CmdWord
  | .waitrd d iReg iA iB iC => packWord opWaitrd d.bits iReg iA iB iC
  | .waitwr d iReg iA iB iC => packWord opWaitwr d.bits iReg iA iB iC
  | .issuerd d sel dat iReg iC => packWord opIssuerd d.bits iReg sel dat iC
  | .issuewr d sel dat iReg iC => packWord opIssuewr d.bits iReg sel dat iC
  | .rdcmd d iReg iA iB iC => packWord opRdcmd d.bits iReg iA iB iC
  | .wrcmd d b0 b1 b2 x y z =>
    packWord opWrcmd d.bits (internalRegisterNumber b0 b1 b2) x y z

/-- The command word whose low `nbits` bits are `w` and whose other bits are 0, numbered as
spec/opcode_table.json numbers them: the whole command is ONE 144-bit word. -/
def tableWord (nbits w : Nat) : CmdWord := BitVec.ofNat 144 (w % 2 ^ nbits)

/-- What the decoder reads from a table word. -/
def decodeTableWord (nbits w : Nat) : Option Instr :=
  match decode (tableWord nbits w) with
  | .ok i => some i
  | .error _ => none

end Sys2Proof
end

