-- ==== Sys2Proof/Machine/State.lean ====
section
/-! DEFINITION. The state of the machine: the block's own state (10_state.md R13 to R18), the
host's command port and reset line (R23), the accessor port's answers (R11, R23), the record of
transactions (20_memory.md R47), and the bytes of configuration space the block has written. -/

namespace Sys2Proof.Machine

open Sys2Proof.Config

/-- The values of `st` (R14): the accessor transaction the command is at. -/
inductive St where
  | idle | poll | sel | dat | ctl | rd1 | rd2 | ack
  deriving DecidableEq, Repr

/-- The phase index `ph` of WRCMD (R14): `one` is bit value 0, `two` is bit value 1. -/
inductive Phase where
  | one | two
  deriving DecidableEq, Repr

/-- The status codes of 30_encoding.md R58. 5, 6 and 7 are never produced (93 U15). -/
inductive Status where
  | ok | timeout | deviceUnresponsive | accessFailure | illegalCommand
  deriving DecidableEq, Repr

/-- The four exceptions of 60_exceptions.md R120. -/
inductive Cause where
  | accessFailure | timeout | deviceUnresponsive | illegalCommand
  deriving DecidableEq, Repr

/-- The two access widths of 20_memory.md R34: 8-bit and 32-bit. -/
inductive AccSize where
  | byte | word
  deriving DecidableEq, Repr

/-- One accessor transaction as the block asks for it (00_scope.md R6: `MemRead`, `MemWrite`).
The value of an 8-bit write is in bits 7:0, bits 31:8 are 0 (R23). -/
inductive Request where
  | read (size : AccSize) (addr : BitVec ADDR_W) (off : Byte)
  | write (size : AccSize) (addr : BitVec ADDR_W) (off : Byte) (value : Word)
  deriving DecidableEq, Repr

/-- How a transaction was answered (R47: value and verdict). An 8-bit read's value is in bits 7:0,
bits 31:8 are 0. -/
inductive Reply where
  | value (v : Word)
  | done
  | fail
  deriving DecidableEq, Repr

/-- One entry of a trace (R6, R47). -/
structure Transaction where
  req : Request
  reply : Reply
  deriving DecidableEq, Repr

/-- The host's inputs to the block (R23): `rst`, `cmd_valid`, `cmd_word`. -/
structure HostPort where
  rst : Bool
  cmdValid : Bool
  cmdWord : CmdWord
  deriving DecidableEq, Repr

/-- Bytes of configuration space: a key is `{addr, off}` (R30), 24 bits. Keys strictly rising. -/
abbrev Memory := List Host.Cell

/-- The machine's state. The fields down to `issued` are the block's own; `cfg` is the build-time
configuration (R4), which no step writes; the fields after it are the two ports' inputs and the
model's records. -/
structure State where
  /-- `st` (R14). -/
  st : St
  /-- `ph` (R14). -/
  ph : Phase
  /-- `op`, the opcode of the command in progress (R16). -/
  op : Byte
  /-- `x[ADDR]` (R13). -/
  addr : BitVec ADDR_W
  /-- `x[REG]` (R13). -/
  reg : BitVec REG_W
  /-- `x[A]` (R13). -/
  a : Word
  /-- `x[B]` (R13). -/
  b : Word
  /-- `x[C]` (R13). -/
  c : Word
  /-- `x[D1]` (R13). -/
  d1 : Word
  /-- `x[D2]` (R13). -/
  d2 : Word
  /-- `rounds` (R17), a number of `ROUNDS_W` bits. -/
  rounds : Nat
  /-- `ffc` (R17), a number of `FFC_W` bits. -/
  ffc : Nat
  /-- `prev_idle` (R17). -/
  prevIdle : Bool
  /-- `res_valid` (R18). -/
  resValid : Bool
  /-- `status` (R18). -/
  status : Status
  /-- `issued` (R18). -/
  issued : BitVec 2
  /-- The parameters (R4), fixed for the machine. -/
  cfg : Params
  /-- What the host drives now (R23). -/
  host : HostPort
  /-- What the host will drive at the steps after this one, in order. -/
  hostNext : List HostPort
  /-- What the environment will show on the accessor port, in order, before the free value
  `Config.accPort` takes over. -/
  env : List AccPort
  /-- How many times the accessor port has been sampled. -/
  draws : Nat
  /-- Every transaction answered so far, oldest first (R47). -/
  trace : List Transaction
  /-- For each byte of configuration space the block has written, the byte last written. No read
  ever consults it (R11). -/
  written : Memory
  deriving DecidableEq, Repr

/-- Why the machine is stuck. -/
inductive Fault where
  /-- The sequencer state `(op, st, ph)` has no row in R15, so no rule says what happens. Raised by
  the one operation that looks up the enabled transaction, by a meaning run on a command in
  progress that is not its own, and by a step on a reserved `op` outside IDLE. SAFE: the model
  stops; no state that `step` reaches from reset is such a state. -/
  | noTransition
  deriving DecidableEq, Repr

/-- Why the model gives no meaning. -/
inductive Refusal where
  /-- An arm of `exec` without a meaning. Raised by no arm: all six commands are modelled. SAFE. -/
  | notModelled (mnemonic : String)
  /-- The parameter record breaks 00_scope.md R5, which asks a model to refuse it (93 U16). Raised
  by `step`. SAFE. -/
  | badConfiguration
  /-- The parameter record meets R5, but its `DEBOUNCE` or its address widths are not those the rules
  are written for (R4, 30_encoding.md R50): no rule says what such a block does. Raised by `step`.
  SAFE. -/
  | layoutMismatch
  deriving DecidableEq, Repr

/-- A host that offers nothing. -/
def HostPort.quiet : HostPort := ⟨false, false, 0⟩

/-- The block right after `Reset` (R26), with the hardware's parameters (R4), a quiet host, an
empty trace and nothing written. -/
def State.reset : State where
  st := .idle
  ph := .one
  op := 0x00
  addr := 0
  reg := 0
  a := 0
  b := 0
  c := 0
  d1 := 0
  d2 := 0
  rounds := 0
  ffc := 0
  prevIdle := false
  resValid := false
  status := .ok
  issued := 0
  cfg := Params.hardware
  host := HostPort.quiet
  hostNext := []
  env := []
  draws := 0
  trace := []
  written := []

end Sys2Proof.Machine
end

