-- ==== Sys2Proof/Machine/Flags.lean ====
section
/-! DEFINITION. The tests the poller makes on a sample (40_poller.md R71 to R78), and the numeric
codes of `st`, `ph` and `status` (10_state.md R14, 30_encoding.md R58). -/

namespace Sys2Proof.Machine

open Sys2Proof.Config

/-- R72: an idle sample has the tested busy bit clear. -/
def isIdleSample (mask sample : Byte) : Bool := sample &&& mask == 0

/-- R75: a sample that counts toward DeviceUnresponsive. -/
def isAbsentSample (p : Params) (sample : Byte) : Bool := sample == p.absentByte

/-- R74: whether a sample opens a new round, given the `prev_idle` it finds. -/
def opensRound (p : Params) (prevIdle : Bool) : Bool := !p.pairedConfirm || !prevIdle

/-- R78: whether the round is still open after a sample that was idle or not. -/
def roundOpen (p : Params) (idle : Bool) : Bool := p.pairedConfirm && idle

/-- The next value of a counter of `width` bits: addition is modulo `2 ^ width` (00_scope.md R6). -/
def counterNext (width n : Nat) : Nat := (n + 1) % 2 ^ width

/-- R14: the number of a value of `st`. -/
def St.code : St → BitVec 3
  | .idle => 0
  | .poll => 1
  | .sel => 2
  | .dat => 3
  | .ctl => 4
  | .rd1 => 5
  | .rd2 => 6
  | .ack => 7

/-- R14: the bit `ph`. -/
def Phase.code : Phase → BitVec 1
  | .one => 0
  | .two => 1

/-- R58: the number of a status. -/
def Status.code : Status → BitVec 3
  | .ok => 0
  | .timeout => 1
  | .deviceUnresponsive => 2
  | .accessFailure => 3
  | .illegalCommand => 4

/-- R120: the status an exception ends a command with. -/
def Cause.status : Cause → Status
  | .accessFailure => .accessFailure
  | .timeout => .timeout
  | .deviceUnresponsive => .deviceUnresponsive
  | .illegalCommand => .illegalCommand

end Sys2Proof.Machine
end

