-- ==== Sys2Proof/Machine/Operands.lean ====
section
/-! DEFINITION. What a command in progress uses: the constants that follow from `op`
(10_state.md R16), the selector and data of an issue (41_issuer.md R90, 42_sequences.md R102), and
the one enabled transaction of each sequencer state (10_state.md R14). -/

namespace Sys2Proof.Machine

open Sys2Proof.Config

/-- R16, R71: the busy bit the poller tests. Meaningful for WAITRD, WAITWR and WRCMD. -/
def busyMask (p : Params) (op : Byte) : Byte :=
  if op = opWaitrd then p.readBusy else p.writeBusy

/-- R16, R90: the byte the CTL step writes. Meaningful for ISSUERD, ISSUEWR and WRCMD. -/
def triggerFlag (p : Params) (op : Byte) : Byte :=
  if op = opIssuerd then p.readBusy else p.writeBusy

/-- The selector of the SEL step: `x[A]` (R90); in WRCMD `zext_32(x[REG])` in phase 1 (R101) and
`x[B]` in phase 2 (R102). -/
def State.selector (s : State) : Word :=
  if s.op = opWrcmd then
    match s.ph with
    | .one => s.reg.setWidth 32
    | .two => s.b
  else s.a

/-- The data word of the DAT step: `x[B]` (R90); in WRCMD `x[A]` in phase 1 and `x[C]` in phase 2
(R102). -/
def State.dataWord (s : State) : Word :=
  if s.op = opWrcmd then
    match s.ph with
    | .one => s.a
    | .two => s.c
  else s.b

/-- The `(command, at)` pairs of R15's table, with `ph` 0 for every command but WRCMD (R14). -/
def pcLegal (op : Byte) (st : St) (ph : Phase) : Bool :=
  match st with
  | .idle => true
  | .poll => (ph == .one && (op == opWaitrd || op == opWaitwr)) || op == opWrcmd
  | .sel | .dat | .ctl => (ph == .one && (op == opIssuerd || op == opIssuewr)) || op == opWrcmd
  | .rd1 | .rd2 | .ack => ph == .one && op == opRdcmd

/-- R14: the one transaction that is enabled; none in IDLE, and none in a sequencer state that R15
does not list. -/
def State.request (s : State) : Option Request :=
  if pcLegal s.op s.st s.ph then
    match s.st with
    | .idle => none
    | .poll => some (.read .byte s.addr s.cfg.ctrlOff)
    | .sel => some (.write .word s.addr s.cfg.selOff s.selector)
    | .dat => some (.write .word s.addr s.cfg.dinOff s.dataWord)
    | .ctl => some (.write .byte s.addr s.cfg.ctrlOff ((triggerFlag s.cfg s.op).setWidth 32))
    | .rd1 => some (.read .word s.addr s.cfg.dout1Off)
    | .rd2 => some (.read .word s.addr s.cfg.dout2Off)
    | .ack => some (.write .byte s.addr s.cfg.ctrlOff (s.cfg.readBitFlag.setWidth 32))
  else none

/-- The inputs of the accessor port at this step: the next of `env`, or the free value (R11). -/
def State.accPort (s : State) : AccPort :=
  match s.env with
  | [] => Config.accPort s.draws
  | p :: _ => p

/-- The command word that the latches hold: every field of a word has a latch (R51). -/
def State.latchedWord (s : State) : CmdWord := packWord s.op s.addr s.reg s.a s.b s.c

/-- The word that says which command acts at this step: in IDLE the word the host offers (R24),
otherwise the one latched at `Accept` (R43). -/
def State.currentWord (s : State) : CmdWord :=
  match s.st with
  | .idle => s.host.cmdWord
  | _ => s.latchedWord

end Sys2Proof.Machine
end

