-- ==== Sys2Proof/Machine/Ops.lean ====
section
/-! DEFINITION. The shared operations: configuration-space bytes, the accessor transaction,
`Accept`, `raise` and `complete`, the poll step, the issue, `Reset`. -/

namespace Sys2Proof.Machine

open Sys2Proof.Config

/-! ## Configuration-space bytes (20_memory.md R30, R36) -/

/-- The key of the byte at offset `off` of function `addr`: 24 bits `{addr, off}`. -/
def cellKey (addr : BitVec ADDR_W) (off : Byte) : Nat := (addr ++ off : BitVec 24).toNat

/-- What a byte that the block has not written reads as: no value. -/
def Memory.unlisted : Option Byte := none

/-- The byte the block last wrote at a key. -/
def Memory.read (m : Memory) (k : Nat) : Option Byte :=
  match m with
  | [] => Memory.unlisted
  | c :: rest => if c.1 = k then some c.2 else Memory.read rest k

/-- Write one byte, keeping the keys strictly rising. -/
def Memory.write (m : Memory) (k : Nat) (v : Byte) : Memory :=
  match m with
  | [] => [(k, v)]
  | c :: rest =>
    if k < c.1 then (k, v) :: c :: rest
    else if k = c.1 then (k, v) :: rest
    else c :: Memory.write rest k v

/-- The canonical form: keys strictly rising, each inside the 24-bit space. No entry can equal what
an unlisted byte reads as, since that is no value. -/
abbrev Memory.wf (m : Memory) : Prop :=
  m.Pairwise (fun x y => x.1 < y.1) ∧ ∀ c ∈ m, c.1 < 2 ^ 24

/-- The bytes of a value of one access width at an offset, least significant first (R36, D15). -/
def accessCells (size : AccSize) (addr : BitVec ADDR_W) (off : Byte) (v : Word) : Memory :=
  match size with
  | .byte => [(cellKey addr off, v.extractLsb' 0 8)]
  | .word =>
    [(cellKey addr off, v.extractLsb' 0 8), (cellKey addr (off + 1), v.extractLsb' 8 8),
     (cellKey addr (off + 2), v.extractLsb' 16 8), (cellKey addr (off + 3), v.extractLsb' 24 8)]

/-- The bytes a transaction stores: none for a read. -/
def Request.cells : Request → Memory
  | .read _ _ _ => []
  | .write size addr off v => accessCells size addr off v

/-- Write a list of bytes. -/
def Memory.writeAll (m : Memory) (cs : Memory) : Memory :=
  cs.foldl (fun m c => Memory.write m c.1 c.2) m

/-! ## The ports (10_state.md R23, R24) -/

/-- What the host drives after a step: the next of `hostNext`; where that is empty it lowers `rst`,
and holds an offer until it is `taken` (R152). -/
def State.nextHost (taken : Bool) (s : State) : HostPort :=
  match s.hostNext with
  | [] => { s.host with rst := false, cmdValid := s.host.cmdValid && !taken }
  | p :: _ => p

/-- The host's port after a step. -/
def State.advanceHost (taken : Bool) (s : State) : State :=
  { s with host := s.nextHost taken, hostNext := s.hostNext.tail }

/-- The accessor port after it was sampled. -/
def State.advanceEnv (s : State) : State := { s with env := s.env.tail, draws := s.draws + 1 }

/-! ## Small moves of the sequencer -/

/-- `pc <- S` (R6): `st` moves, `ph` stays. -/
def State.goto (st : St) (s : State) : State := { s with st := st }

/-- Poll entry (R70, R73). -/
def State.enterPoll (s : State) : State :=
  { s with st := .poll, rounds := 0, ffc := 0, prevIdle := false }

/-- `Accept` (R24, R51): the result is cleared, every latch is loaded, the host's offer is taken.
`st` is left to the caller. -/
def State.accept (op : Byte) (addr : BitVec ADDR_W) (reg : BitVec REG_W) (a b c : Word)
    (s : State) : State :=
  { State.advanceHost true s with
    resValid := false, op := op, addr := addr, reg := reg, a := a, b := b, c := c,
    ph := .one, issued := 0 }

/-! ## Taking an exception, and completion (60_exceptions.md R128) -/

/-- The step that ends a command with a status. -/
def State.finish (status : Status) (s : State) : State :=
  { s with status := status, resValid := true, st := .idle }

/-- `raise E` (R128). There is no handler and no return: the block is in IDLE (R129). -/
def State.raise (e : Cause) (s : State) : State := State.finish e.status s

/-- `complete(OK)` (R128). -/
def State.complete (s : State) : State := State.finish .ok s

/-- `Accept` of a reserved opcode (R56): the latches are loaded (R24, R51) and IllegalCommand is
raised in the same step. -/
def State.acceptIllegal (cw : CmdWord) (s : State) : State :=
  State.raise .illegalCommand
    (State.accept (opField cw) (addrField cw) (regField cw) (aField cw) (bField cw) (cField cw) s)

/-! ## The accessor transaction (20_memory.md R32, R33, R47) -/

/-- The value a read yields: the byte in bits 7:0 for an 8-bit read (R23). -/
def AccSize.readValue (size : AccSize) (rdata : Word) : Word :=
  match size with
  | .byte => (rdata.extractLsb' 0 8).setWidth 32
  | .word => rdata

/-- The trace entry's reply to a transaction that completed. -/
def Request.okReply (rdata : Word) : Request → Reply
  | .read size _ _ => .value (size.readValue rdata)
  | .write _ _ _ _ => .done

/-- Record an answered transaction; `lands` says whether a write changed the device. -/
def State.record (req : Request) (reply : Reply) (lands : Bool) (s : State) : State :=
  { s with
    trace := s.trace ++ [⟨req, reply⟩]
    written := if lands then Memory.writeAll s.written req.cells else s.written }

/-- The `Access` event for one request (R12). Not yet answered: the block stays as it is. Answered
with failure: AccessFailure (R122). Answered: `onDone` gets the port's data word. -/
def State.access (req : Request) (onDone : Word → State → State) (s : State) : State :=
  let port := s.accPort
  let next := State.advanceEnv (State.advanceHost false s)
  if port.done then
    if port.fail then State.raise .accessFailure (State.record req .fail port.reached next)
    else onDone port.rdata (State.record req (req.okReply port.rdata) true next)
  else next

/-- The `Access` event of the command in progress: on the one enabled transaction (R14). -/
def State.transact (onDone : Word → State → State) (s : State) :
    Host.Outcome State Fault Refusal :=
  match s.request with
  | some req => .next (State.access req onDone s)
  | none => .fault .noTransition

/-! ## The poll step (40_poller.md R79) -/

/-- Round accounting (R74). -/
def State.countRound (s : State) : State :=
  { s with
    rounds := if opensRound s.cfg s.prevIdle then counterNext s.cfg.roundsW s.rounds else s.rounds }

/-- The all-ones count (R75). -/
def State.countAbsent (sample : Byte) (s : State) : State :=
  { s with
    ffc := if isAbsentSample s.cfg sample then counterNext s.cfg.ffcW s.ffc else s.ffc }

/-- `PollStep` for a sample that did not fail, in R79's order of tests. -/
def State.pollStep (success : State → State) (sample : Byte) (s : State) : State :=
  let s1 := State.countAbsent sample (State.countRound s)
  if isAbsentSample s.cfg sample && s1.ffc == s.cfg.ffLimit then
    State.raise .deviceUnresponsive s1
  else
    let idle := isIdleSample (busyMask s.cfg s.op) sample
    if idle && s1.prevIdle then success s1
    else
      let s2 := { s1 with prevIdle := idle }
      if s2.rounds == s.cfg.pollBudget && !roundOpen s.cfg idle then
        State.raise .timeout s2
      else s2

/-- One sample: the byte is bits 7:0 of the data word (R23, R79). -/
def State.samplePoll (success : State → State) (s : State) : Host.Outcome State Fault Refusal :=
  State.transact (fun v t => State.pollStep success (v.extractLsb' 0 8) t) s

/-! ## The issue (41_issuer.md R91) -/

/-- `issued <- issued + 1`, at a CTL write that completed. -/
def State.countIssue (s : State) : State := { s with issued := s.issued + 1 }

/-- One of the three writes of an issue; `ends` is what the command does when the issue ends. -/
def State.issueStep (ends : State → State) (s : State) : Host.Outcome State Fault Refusal :=
  State.transact
    (fun _ t =>
      match s.st with
      | .sel => State.goto .dat t
      | .dat => State.goto .ctl t
      | _ => ends (State.countIssue t))
    s

/-! ## One event of a command (10_state.md R12, R15) -/

/-- In IDLE the command is accepted; while `op` is the command's, its enabled transaction is made. -/
def State.commandEvent (op : Byte) (onAccept : State → State)
    (onAccess : State → Host.Outcome State Fault Refusal) (s : State) :
    Host.Outcome State Fault Refusal :=
  if s.st = .idle then .next (onAccept s)
  else if s.op = op then onAccess s
  else .fault .noTransition

/-! ## The events that are no command's -/

/-- What `Reset` does to the bytes written: where it abandons a write, whether that one still takes
effect is free (R26, 93 U9). -/
def State.abandonedBytes (s : State) : Memory :=
  match s.request with
  | some req => if s.accPort.reached then Memory.writeAll s.written req.cells else s.written
  | none => s.written

/-- The `Reset` event (R26, R140, R141): the block's own fields take their reset values; the
configuration and the trace stay, and the device is not touched but for an abandoned write. -/
def State.resetEvent (s : State) : State :=
  { State.reset with
    cfg := s.cfg
    host := s.nextHost false
    hostNext := s.hostNext.tail
    env := if s.st = .idle then s.env else s.env.tail
    draws := if s.st = .idle then s.draws else s.draws + 1
    trace := s.trace
    written := s.abandonedBytes }

/-- A step in IDLE with nothing offered: nothing changes in the block (R12, R130). -/
def State.waitForCommand (s : State) : State := State.advanceHost false s

/-- A step whose current word is no command: in IDLE, `Accept` of a reserved opcode (R56); outside
IDLE no rule has such a state. -/
def State.reservedEvent (s : State) : Host.Outcome State Fault Refusal :=
  if s.st = .idle then .next (State.acceptIllegal s.host.cmdWord s) else .fault .noTransition

end Sys2Proof.Machine
end

