-- ==== Sys2Proof/Machine/Issuer.lean ====
section
/-! DEFINITION. The Command Issuer's commands: ISSUERD and ISSUEWR (41_issuer.md R92, R93). -/

namespace Sys2Proof.Machine

open Sys2Proof.Config

/-- ISSUERD (R92): selector, data, trigger READ_BUSY; no readiness check (R94). -/
def execIssuerd (addr : DevAddr) (selector data : Word) (iReg : BitVec REG_W) (iC : Word)
    (s : State) : Host.Outcome State Fault Refusal :=
  State.commandEvent opIssuerd
    (fun s => State.goto .sel (State.accept opIssuerd addr.bits iReg selector data iC s))
    (State.issueStep State.complete) s

/-- ISSUEWR (R93): selector, data, trigger WRITE_BUSY; no readiness check (R94). -/
def execIssuewr (addr : DevAddr) (selector data : Word) (iReg : BitVec REG_W) (iC : Word)
    (s : State) : Host.Outcome State Fault Refusal :=
  State.commandEvent opIssuewr
    (fun s => State.goto .sel (State.accept opIssuewr addr.bits iReg selector data iC s))
    (State.issueStep State.complete) s

end Sys2Proof.Machine
end

