-- ==== Sys2Proof/Machine/Poller.lean ====
section
/-! DEFINITION. The Readiness Poller's commands: WAITRD and WAITWR (40_poller.md R80, R81). -/

namespace Sys2Proof.Machine

open Sys2Proof.Config

/-- WAITRD (R80): poll READ_BUSY; success completes the command. -/
def execWaitrd (addr : DevAddr) (iReg : BitVec REG_W) (iA iB iC : Word) (s : State) :
    Host.Outcome State Fault Refusal :=
  State.commandEvent opWaitrd
    (fun s => State.enterPoll (State.accept opWaitrd addr.bits iReg iA iB iC s))
    (State.samplePoll State.complete) s

/-- WAITWR (R81): poll WRITE_BUSY; success completes the command. -/
def execWaitwr (addr : DevAddr) (iReg : BitVec REG_W) (iA iB iC : Word) (s : State) :
    Host.Outcome State Fault Refusal :=
  State.commandEvent opWaitwr
    (fun s => State.enterPoll (State.accept opWaitwr addr.bits iReg iA iB iC s))
    (State.samplePoll State.complete) s

end Sys2Proof.Machine
end

