-- ==== Sys2Proof/Machine/Sequencer.lean ====
section
/-! DEFINITION. The command-sequencer's commands: RDCMD and WRCMD (42_sequences.md R106, R102). -/

namespace Sys2Proof.Machine

open Sys2Proof.Config

/-- What an answered transaction of RDCMD does (R106). -/
def State.collectStep (at' : St) (v : Word) (t : State) : State :=
  match at' with
  | .rd1 => State.goto .rd2 { t with d1 := v }
  | .rd2 => State.goto .ack { t with d2 := v }
  | _ => State.complete t

/-- RDCMD (R106): read word 1, read word 2, acknowledge; no poll (R107). -/
def execRdcmd (addr : DevAddr) (iReg : BitVec REG_W) (iA iB iC : Word) (s : State) :
    Host.Outcome State Fault Refusal :=
  State.commandEvent opRdcmd
    (fun s => State.goto .rd1 (State.accept opRdcmd addr.bits iReg iA iB iC s))
    (fun s => State.transact (State.collectStep s.st) s) s

/-- What WRCMD does when an issue ends (R102): after phase 1 it enters phase 2's poll, after phase
2 it completes. -/
def State.phaseEnds (s : State) : State :=
  match s.ph with
  | .one => State.enterPoll { s with ph := .two }
  | .two => State.complete s

/-- WRCMD (R102): poll, issue `(reg, dat0)`, poll, issue `(dat1, dat2)`. -/
def execWrcmd (addr : DevAddr) (regB0 regB1 regB2 : Byte) (dat0 dat1 dat2 : Word) (s : State) :
    Host.Outcome State Fault Refusal :=
  State.commandEvent opWrcmd
    (fun s => State.enterPoll
      (State.accept opWrcmd addr.bits (internalRegisterNumber regB0 regB1 regB2)
        dat0 dat1 dat2 s))
    (fun s =>
      match s.st with
      | .poll => State.samplePoll (State.goto .sel) s
      | _ => State.issueStep State.phaseEnds s) s

end Sys2Proof.Machine
end

