-- ==== Sys2Proof/Machine/Dispatch.lean ====
section
/-! DEFINITION. One arm per command: the event of command `i` at state `s`. -/

namespace Sys2Proof.Machine

def exec (i : Instr) (s : State) : Host.Outcome State Fault Refusal :=
  match i with
  | .waitrd addr iReg iA iB iC => Sys2Proof.Machine.execWaitrd addr iReg iA iB iC s
  | .waitwr addr iReg iA iB iC => Sys2Proof.Machine.execWaitwr addr iReg iA iB iC s
  | .issuerd addr selector data iReg iC => Sys2Proof.Machine.execIssuerd addr selector data iReg iC s
  | .issuewr addr selector data iReg iC => Sys2Proof.Machine.execIssuewr addr selector data iReg iC s
  | .rdcmd addr iReg iA iB iC => Sys2Proof.Machine.execRdcmd addr iReg iA iB iC s
  | .wrcmd addr regB0 regB1 regB2 dat0 dat1 dat2 => Sys2Proof.Machine.execWrcmd addr regB0 regB1 regB2 dat0 dat1 dat2 s

end Sys2Proof.Machine
end

