-- ==== Sys2Proof/Machine/Step.lean ====
section
/-! DEFINITION. One step: one event of 10_state.md R12, or a step in which nothing happens. -/

namespace Sys2Proof.Machine

/-- The events in the order they are looked for: a configuration outside R5, or one the rules are not
written for, is refused; `rst` is `Reset` (R26); IDLE with nothing offered waits; otherwise the
current word (the offered one in IDLE, the latched one in a command) is decoded and its event
happens. -/
def step (s : State) : Host.Outcome State Fault Refusal :=
  if s.cfg.wellFormed then
    if s.host.rst then .next s.resetEvent
    else if s.st = .idle ∧ s.host.cmdValid = false then .next s.waitForCommand
    else
      match decode s.currentWord with
      | .ok i => exec i s
      | .error _ => s.reservedEvent
  else .refused (if s.cfg.constraintsOk then .layoutMismatch else .badConfiguration)

/-- The host offers the table word at a block in IDLE, with `rst` low: the very next step accepts
it. The block has no instruction memory (20_memory.md R43); this stands for the host's `cmd_valid`
and `cmd_word`. -/
def State.withFetchWord (s : State) (nbits w : Nat) : State :=
  { s with st := .idle, host := ⟨false, true, tableWord nbits w⟩ }

end Sys2Proof.Machine
end

