-- ==== Sys2Proof/Machine/Listing.lean ====
section
/-! DEFINITION. The listing notation (30_encoding.md R62): one line per command, its operands in the
document's argument order, and `.word` for a raw command word; what a line assembles to, and how it
is written. -/

namespace Sys2Proof.Machine

open Sys2Proof.Config

/-- A listing line (R62). -/
inductive Line where
  | waitrd (addr : DevAddr)
  | waitwr (addr : DevAddr)
  | issuerd (addr : DevAddr) (registerSelector data : Word)
  | issuewr (addr : DevAddr) (registerSelector data : Word)
  | rdcmd (addr : DevAddr)
  | wrcmd (addr : DevAddr) (regB0 regB1 regB2 : Byte) (dat0 dat1 dat2 : Word)
  /-- `.word`, for an opcode that has no mnemonic. -/
  | raw (cw : CmdWord)
  deriving DecidableEq, Repr

/-- The command of a line, with 0 in ignored fields (R54, R62); none for `.word`. -/
def Line.instr : Line → Option Instr
  | .waitrd d => some (.waitrd d 0 0 0 0)
  | .waitwr d => some (.waitwr d 0 0 0 0)
  | .issuerd d sel dat => some (.issuerd d sel dat 0 0)
  | .issuewr d sel dat => some (.issuewr d sel dat 0 0)
  | .rdcmd d => some (.rdcmd d 0 0 0 0)
  | .wrcmd d b0 b1 b2 x y z => some (.wrcmd d b0 b1 b2 x y z)
  | .raw _ => none

/-- The word a line assembles to. -/
def Line.assemble (l : Line) : CmdWord :=
  match l with
  | .raw cw => cw
  | l => (l.instr.map encode).getD 0

/-- The hexadecimal digits the spec's operands and words use. -/
def upperDigits : List String :=
  ["0", "1", "2", "3", "4", "5", "6", "7", "8", "9", "A", "B", "C", "D", "E", "F"]

/-- The hexadecimal digits the spec's addresses use. -/
def lowerDigits : List String :=
  ["0", "1", "2", "3", "4", "5", "6", "7", "8", "9", "a", "b", "c", "d", "e", "f"]

/-- The low `n` hexadecimal digits of a number, most significant first. -/
def hexText (digits : List String) : Nat → Nat → String
  | 0, _ => ""
  | n + 1, v => hexText digits n (v / 16) ++ digits.getD (v % 16) ""

/-- `bus:dev.fn` in hexadecimal without `0x` (R62). -/
def DevAddr.text (d : DevAddr) : String :=
  hexText lowerDigits 2 d.bus.toNat ++ ":" ++ hexText lowerDigits 2 d.dev.toNat ++ "." ++
    hexText lowerDigits 1 d.fn.toNat

/-- An 8-bit operand. -/
def byteText (v : Byte) : String := "0x" ++ hexText upperDigits 2 v.toNat

/-- A 32-bit operand. -/
def wordText (v : Word) : String := "0x" ++ hexText upperDigits 8 v.toNat

/-- The 36 hexadecimal digits of a command word in the grouping of R50. -/
def cmdWordText (cw : CmdWord) : String :=
  hexText upperDigits 2 (opField cw).toNat ++ " " ++
  hexText upperDigits 4 (addrField cw).toNat ++ " " ++
  hexText upperDigits 6 (regField cw).toNat ++ " " ++
  hexText upperDigits 8 (aField cw).toNat ++ " " ++
  hexText upperDigits 8 (bField cw).toNat ++ " " ++
  hexText upperDigits 8 (cField cw).toNat

/-- The mnemonic, the address, then the operands, separated by commas (R62). -/
def lineText (mnemonic : String) (d : DevAddr) (operands : List String) : String :=
  mnemonic ++ " " ++ DevAddr.text d ++ operands.foldr (fun o rest => ", " ++ o ++ rest) ""

/-- A line as it is written (R62). -/
def Line.text : Line → String
  | .waitrd d => lineText "WAITRD" d []
  | .waitwr d => lineText "WAITWR" d []
  | .issuerd d sel dat => lineText "ISSUERD" d [wordText sel, wordText dat]
  | .issuewr d sel dat => lineText "ISSUEWR" d [wordText sel, wordText dat]
  | .rdcmd d => lineText "RDCMD" d []
  | .wrcmd d b0 b1 b2 x y z =>
    lineText "WRCMD" d
      [byteText b0, byteText b1, byteText b2, wordText x, wordText y, wordText z]
  | .raw cw => ".word " ++ cmdWordText cw

end Sys2Proof.Machine
end

