-- ==== Sys2Proof/Machine/Ports.lean ====
section
/-! DEFINITION. The block's output signals (10_state.md R23) and the result a host may read
(30_encoding.md R57), as functions of the state. -/

namespace Sys2Proof.Machine

open Sys2Proof.Config

/-- `cmd_ready` (R23). -/
def State.cmdReady (s : State) : Bool := s.st == .idle

/-- `acc_valid` (R23): between two steps the transaction of `st` is not answered yet. -/
def State.accValid (s : State) : Bool := s.st != .idle

/-- `acc_write`: 0 for a read, 1 for a write. -/
def State.accWrite (s : State) : Option (BitVec 1) :=
  s.request.map fun
    | .read _ _ _ => 0
    | .write _ _ _ _ => 1

/-- `acc_size`: 0 for 8-bit, 1 for 32-bit. -/
def State.accSize (s : State) : Option (BitVec 1) :=
  s.request.map fun
    | .read .byte _ _ => 0
    | .read .word _ _ => 1
    | .write .byte _ _ _ => 0
    | .write .word _ _ _ => 1

/-- `acc_addr`. -/
def State.accAddr (s : State) : BitVec ADDR_W := s.addr

/-- `acc_off`. -/
def State.accOff (s : State) : Option Byte :=
  s.request.map fun
    | .read _ _ off => off
    | .write _ _ off _ => off

/-- `acc_wdata`, of a write. -/
def State.accWdata (s : State) : Option Word :=
  s.request.bind fun
    | .read _ _ _ => none
    | .write _ _ _ v => some v

/-- `res_valid`. -/
def State.resValidOut (s : State) : Bool := s.resValid
/-- `res_status`. -/
def State.resStatus (s : State) : BitVec 3 := s.status.code
/-- `res_issued`. -/
def State.resIssued (s : State) : BitVec 2 := s.issued
/-- `res_data1`. -/
def State.resData1 (s : State) : Word := s.d1
/-- `res_data2`. -/
def State.resData2 (s : State) : Word := s.d2

/-- The result of a command (R57): `data` only for an RDCMD that ended with OK (R18, D14). The
24 reserved bytes of the document's CommandPacket are not part of it (D13). -/
structure CommandResult where
  status : Status
  issued : BitVec 2
  data : Option (Word × Word)
  deriving DecidableEq, Repr

/-- What a host may read: nothing while `res_valid` is 0, and data words only where they have
meaning (93 U6). -/
def State.result (s : State) : Option CommandResult :=
  if s.resValid then
    some ⟨s.status, s.issued,
      if s.op = opRdcmd ∧ s.status = .ok then some (s.d1, s.d2) else none⟩
  else none

end Sys2Proof.Machine
end

