-- ==== Sys2Proof/Safety.lean ====
section
/-! DEFINITION. What counts as a sound state and a safe run, in the terms the statements use: the
invariant, the register map, the transaction bounds, the reading of a trace, and the states that
answered transactions lead to. -/

namespace Sys2Proof.Machine

open Sys2Proof.Config

/-! ## The register map (20_memory.md R31, R34, 30_encoding.md R59) -/

/-- A transaction the block may make under parameters `p`: an offset, direction and width of R31's
table, and at `CTRL_OFF` only the three byte values of R59. -/
def Request.allowed (p : Params) : Request → Prop
  | .read .byte _ off => off = p.ctrlOff
  | .read .word _ off => off = p.dout1Off ∨ off = p.dout2Off
  | .write .byte _ off v =>
    off = p.ctrlOff ∧
      (v = p.readBusy.setWidth 32 ∨ v = p.writeBusy.setWidth 32 ∨ v = p.readBitFlag.setWidth 32)
  | .write .word _ off _ => off = p.selOff ∨ off = p.dinOff

/-- The function a transaction addresses. -/
def Request.addr : Request → BitVec ADDR_W
  | .read _ addr _ => addr
  | .write _ addr _ _ => addr

/-! ## The invariant -/

/-- R17: the counters stay in their ranges, and inside a poll neither limit has been met with the
round closed. -/
def State.CountersOk (s : State) : Prop :=
  s.rounds ≤ s.cfg.pollBudget ∧ s.ffc ≤ s.cfg.ffLimit ∧
  (s.st = .poll →
    s.ffc < s.cfg.ffLimit ∧
    (s.rounds < s.cfg.pollBudget ∨ (s.cfg.pairedConfirm = true ∧ s.prevIdle = true)))

/-- R18, R103: `issued` is at most 2, and inside a command it counts the phases left behind. -/
def State.IssuedOk (s : State) : Prop :=
  s.issued.toNat ≤ 2 ∧
  (s.st ≠ .idle → s.issued = match s.ph with | .one => 0 | .two => 1)

/-- The states a step keeps the machine in. -/
def State.Inv (s : State) : Prop :=
  s.cfg.wellFormed = true ∧
  pcLegal s.op s.st s.ph = true ∧
  (s.st ≠ .idle → s.resValid = false) ∧
  s.IssuedOk ∧
  s.CountersOk ∧
  Memory.wf s.written ∧
  ∀ x ∈ s.trace, x.req.allowed s.cfg

/-! ## Bounds on the number of transactions (70_reset_and_hazards.md R154) -/

/-- The most samples of one poll. -/
def pollMost (p : Params) : Nat :=
  if p.pairedConfirm then 2 * p.pollBudget else p.pollBudget

/-- R154, the columns 'most transactions'. -/
def mostTransactions (p : Params) : Instr → Nat
  | .waitrd _ _ _ _ _ => pollMost p
  | .waitwr _ _ _ _ _ => pollMost p
  | .issuerd _ _ _ _ _ => 3
  | .issuewr _ _ _ _ _ => 3
  | .rdcmd _ _ _ _ _ => 3
  | .wrcmd _ _ _ _ _ _ _ => 2 * pollMost p + 6

/-- The most samples the poll in progress may still take. -/
def State.pollLeft (s : State) : Nat :=
  if s.cfg.pairedConfirm then
    2 * (s.cfg.pollBudget - s.rounds) + (if s.prevIdle then 1 else 0)
  else s.cfg.pollBudget - s.rounds

/-- What phase 2 of a WRCMD may still take when the command is in phase 1. -/
def State.phaseTwoLeft (s : State) : Nat :=
  if s.op = opWrcmd ∧ s.ph = .one then pollMost s.cfg + 3 else 0

/-- The most transactions the command in progress may still make. -/
def State.remaining (s : State) : Nat :=
  match s.st with
  | .idle => 0
  | .poll => s.pollLeft + (if s.op = opWrcmd then 3 else 0) + s.phaseTwoLeft
  | .sel => 3 + s.phaseTwoLeft
  | .dat => 2 + s.phaseTwoLeft
  | .ctl => 1 + s.phaseTwoLeft
  | .rd1 => 3
  | .rd2 => 2
  | .ack => 1

/-! ## Runs and traces -/

/-- The host gives nothing more: no `rst` now, and nothing after the current port values. -/
def State.HostSilent (s : State) : Prop := s.host.rst = false ∧ s.hostNext = []

/-- The host offers the command `i` to a block in IDLE, and nothing more. -/
def State.Offers (s : State) (i : Instr) : Prop :=
  s.cfg.wellFormed = true ∧ s.st = .idle ∧ s.HostSilent ∧ s.host.cmdValid = true ∧
  decode s.host.cmdWord = .ok i

/-- An answer that is not a failure. -/
def answerOk (v : Word) : AccPort := ⟨true, false, v, false⟩

/-- An 8-bit sample as the accessor port shows it. -/
def sampleOf (v : Byte) : AccPort := answerOk (v.setWidth 32)

/-- The transactions of a list that are writes and completed, in order. -/
def completedWrites (l : List Transaction) : List Request :=
  l.filterMap fun x =>
    match x.req, x.reply with
    | .write size addr off v, .done => some (.write size addr off v)
    | _, _ => none

/-- The three writes of an issue (41_issuer.md R91). -/
def issueWrites (p : Params) (addr : BitVec ADDR_W) (selector data : Word) (flag : Byte) :
    List Request :=
  [.write .word addr p.selOff selector, .write .word addr p.dinOff data,
   .write .byte addr p.ctrlOff (flag.setWidth 32)]

/-- The six writes of a WRCMD (42_sequences.md R105). -/
def wrcmdWrites (p : Params) (addr : BitVec ADDR_W) (reg : BitVec REG_W) (dat0 dat1 dat2 : Word) :
    List Request :=
  issueWrites p addr (reg.setWidth 32) dat0 p.writeBusy ++
    issueWrites p addr dat1 dat2 p.writeBusy

/-- How many of a list of writes are control byte writes: the triggers of an issuing command. -/
def triggers (p : Params) (l : List Request) : Nat :=
  l.countP fun
    | .write .byte _ off _ => off == p.ctrlOff
    | _ => false

/-- A write that completed, as a trace entry. -/
def doneWrite (r : Request) : Transaction := ⟨r, .done⟩

/-- A control byte sample, as a trace entry. -/
def sampleEntry (p : Params) (addr : BitVec ADDR_W) (v : Byte) : Transaction :=
  ⟨.read .byte addr p.ctrlOff, .value (v.setWidth 32)⟩

/-! ## The state in which the answer to the enabled transaction is processed -/

/-- Both ports have moved on and the transaction `req`, answered without failure, is recorded. -/
def State.answered (req : Request) (s : State) : State :=
  State.record req (req.okReply s.accPort.rdata) true (State.advanceEnv (State.advanceHost false s))

/-- Both ports have moved on and the failure of `req` is recorded. -/
def State.answeredFail (req : Request) (s : State) : State :=
  State.record req .fail s.accPort.reached (State.advanceEnv (State.advanceHost false s))

/-- The accessor answers at this step, without failure. -/
def State.AnswersOk (s : State) : Prop := s.accPort.done = true ∧ s.accPort.fail = false

/-- The accessor answers at this step, with failure. -/
def State.AnswersFail (s : State) : Prop := s.accPort.done = true ∧ s.accPort.fail = true

/-- The byte of the accessor port's data word: the sample. -/
def State.sample (s : State) : Byte := s.accPort.rdata.extractLsb' 0 8

/-- 40_poller.md R79: what a sample that did not fail does to the state `u` in which it is
processed; `success` is what the poll's success means for the command. -/
def State.pollAnswer (mask : Byte) (success : State → State) (sample : Byte) (u : State) : State :=
  let rounds := if u.cfg.pairedConfirm = false ∨ u.prevIdle = false then
    (u.rounds + 1) % 2 ^ u.cfg.roundsW else u.rounds
  let ffc := if sample = u.cfg.absentByte then (u.ffc + 1) % 2 ^ u.cfg.ffcW else u.ffc
  let v := { u with rounds := rounds, ffc := ffc }
  if sample = u.cfg.absentByte ∧ ffc = u.cfg.ffLimit then
    { v with status := .deviceUnresponsive, resValid := true, st := .idle }
  else if sample &&& mask = 0 ∧ u.prevIdle = true then success v
  else if rounds = u.cfg.pollBudget ∧
      ¬ (u.cfg.pairedConfirm = true ∧ sample &&& mask = 0) then
    { v with
      prevIdle := decide (sample &&& mask = 0),
      status := .timeout, resValid := true, st := .idle }
  else { v with prevIdle := decide (sample &&& mask = 0) }

/-! ## Comparing states -/

/-- The same state but for the host's two ports' inputs. -/
def State.EqButHost (s t : State) : Prop :=
  { s with host := t.host, hostNext := t.hostNext } = t

/-- The same state but for the parameter `PAIRED_CONFIRM` and the round count. -/
def State.EqButPairing (s t : State) : Prop :=
  { s with
    rounds := t.rounds
    cfg := { s.cfg with pairedConfirm := t.cfg.pairedConfirm } } = t

/-- The latches that the format of the command `op` ignores (30_encoding.md R53, R54), set to 0. -/
def State.maskIgnored (s : State) : State :=
  if s.op = opWrcmd then s
  else if s.op = opIssuerd ∨ s.op = opIssuewr then { s with reg := 0, c := 0 }
  else { s with reg := 0, a := 0, b := 0, c := 0 }

end Sys2Proof.Machine
end

