-- ==== Sys2Proof/Certificates/Slice0/Obligations.lean ====
section
/-! DEFINITION. The statements for the provers. Each docstring names the rule of spec/ it formalises
or rests on. `exec i s` is one event of the command `i`: its `Accept` in IDLE, otherwise the answer
to its one enabled transaction (10_state.md R12, R15). -/

open Sys2Proof Sys2Proof.Machine Sys2Proof.Config

/-! ## Encoding -/

/-- 30_encoding.md R50 to R53, R60: the decoder gives back every instruction from its word. -/
def Obligations.DecodeOfEncodeIsIdentity : Prop :=
  ∀ i : Instr, decode (encode i) = .ok i

/-- R50 to R53: no bit of a command word is dropped. -/
def Obligations.EncodeOfDecodeIsIdentity : Prop :=
  ∀ (cw : CmdWord) (i : Instr), decode cw = .ok i → encode i = cw

/-- R52, R56: the opcode alone decides whether a word is a command, and which one. -/
def Obligations.OpcodeAloneSelectsTheCommand : Prop :=
  ∀ cw : CmdWord,
    (∀ i, decode cw = .ok i → i.opcode = opField cw ∧ opField cw ∈ definedOpcodes) ∧
    (opField cw ∉ definedOpcodes ↔ decode cw = .error (.reservedOpcode (opField cw)))

/-- 95_test_vectors.md V31, V32, V57, V58, V59, the words of program P2 (WAITRD, ISSUERD, RDCMD),
and the WAITWR word of program P6. -/
def Obligations.SpecWordsDecode : Prop :=
  decode 0x01ABAD000000000000000000000000000000 = .ok (.waitrd ⟨0xAB, 0x15, 0x5⟩ 0 0 0 0) ∧
  decode 0x010300000000000000000000000000000000 = .ok (.waitrd ⟨0x03, 0, 0⟩ 0 0 0 0) ∧
  decode 0x020300000000000000000000000000000000 = .ok (.waitwr ⟨0x03, 0, 0⟩ 0 0 0 0) ∧
  decode 0x050300000000000302010000000000000000 =
    .ok (.issuerd ⟨0x03, 0, 0⟩ 0x00030201 0 0 0) ∧
  decode 0x060300000000000000100000AAAA00000000 =
    .ok (.issuewr ⟨0x03, 0, 0⟩ 0x10 0xAAAA 0 0) ∧
  decode 0x090300000000000000000000000000000000 = .ok (.rdcmd ⟨0x03, 0, 0⟩ 0 0 0 0) ∧
  decode 0x0A00FFFFFFFFFFFFFFFF0000000080000000 =
    .ok (.wrcmd ⟨0x00, 0x1F, 0x7⟩ 0xFF 0xFF 0xFF 0xFFFFFFFF 0 0x80000000) ∧
  decode 0x0A03000000100000AAAA000000200000BBBB =
    .ok (.wrcmd ⟨0x03, 0, 0⟩ 0x10 0 0 0xAAAA 0x20 0xBBBB)

/-- 42_sequences.md R100: the concatenation, both of the document's formulas, injective, onto,
the example and corner values, and that the field `reg` of a command word is already the result. -/
def Obligations.InternalRegisterNumberFormulas : Prop :=
  (∀ b0 b1 b2 : Byte,
    internalRegisterNumber b0 b1 b2 = b2 ++ b1 ++ b0 ∧
    internalRegisterNumber b0 b1 b2 =
      (b0.setWidth 24 ||| (b1.setWidth 24 <<< 8) ||| (b2.setWidth 24 <<< 16)) ∧
    internalRegisterNumber b0 b1 b2 =
      b0.setWidth 24 + (b1.setWidth 24 <<< 8) + (b2.setWidth 24 <<< 16) ∧
    (internalRegisterNumber b0 b1 b2).toNat = b0.toNat + b1.toNat * 256 + b2.toNat * 65536) ∧
  (∀ b0 b1 b2 c0 c1 c2 : Byte,
    internalRegisterNumber b0 b1 b2 = internalRegisterNumber c0 c1 c2 →
      b0 = c0 ∧ b1 = c1 ∧ b2 = c2) ∧
  (∀ r : BitVec REG_W, ∃ b0 b1 b2 : Byte, internalRegisterNumber b0 b1 b2 = r) ∧
  internalRegisterNumber 0x01 0x02 0x03 = 0x030201 ∧
  internalRegisterNumber 0 0 0 = 0x000000 ∧
  internalRegisterNumber 0xFF 0xFF 0xFF = 0xFFFFFF ∧
  internalRegisterNumber 0xFF 0 0 = 0x0000FF ∧
  internalRegisterNumber 0 0 0xFF = 0xFF0000 ∧
  ∀ cw : CmdWord, regField cw = internalRegisterNumber (b0Field cw) (b1Field cw) (b2Field cw)

/-- 30_encoding.md R54, R62: what each listing line assembles to, with R62's mapping of operands to
fields and 0 in every ignored field; how it is written, mnemonic and operands in the document's
order (the digits of a number are the model's choice, notes/assumptions/18.md); `.word` is taken as
it is. -/
def Obligations.AssembledLinesDecode : Prop :=
  ∀ (d : DevAddr) (registerSelector data dat0 dat1 dat2 : Word) (regB0 regB1 regB2 : Byte)
    (cw : CmdWord),
    let issuerd := Line.issuerd d registerSelector data
    let issuewr := Line.issuewr d registerSelector data
    let wrcmd := Line.wrcmd d regB0 regB1 regB2 dat0 dat1 dat2
    let device := Machine.DevAddr.text d
    decode (Line.waitrd d).assemble = .ok (.waitrd d 0 0 0 0) ∧
    decode (Line.waitwr d).assemble = .ok (.waitwr d 0 0 0 0) ∧
    decode issuerd.assemble = .ok (.issuerd d registerSelector data 0 0) ∧
    decode issuewr.assemble = .ok (.issuewr d registerSelector data 0 0) ∧
    decode (Line.rdcmd d).assemble = .ok (.rdcmd d 0 0 0 0) ∧
    decode wrcmd.assemble = .ok (.wrcmd d regB0 regB1 regB2 dat0 dat1 dat2) ∧
    (Line.raw cw).assemble = cw ∧
    (∀ l ∈ [issuerd, issuewr], aField l.assemble = registerSelector ∧ bField l.assemble = data) ∧
    b0Field wrcmd.assemble = regB0 ∧ b1Field wrcmd.assemble = regB1 ∧
    b2Field wrcmd.assemble = regB2 ∧ aField wrcmd.assemble = dat0 ∧
    bField wrcmd.assemble = dat1 ∧ cField wrcmd.assemble = dat2 ∧
    (Line.waitrd d).text = "WAITRD" ++ " " ++ device ∧
    (Line.waitwr d).text = "WAITWR" ++ " " ++ device ∧
    issuerd.text =
      "ISSUERD" ++ " " ++ device ++ ", " ++ wordText registerSelector ++ ", " ++ wordText data ∧
    issuewr.text =
      "ISSUEWR" ++ " " ++ device ++ ", " ++ wordText registerSelector ++ ", " ++ wordText data ∧
    (Line.rdcmd d).text = "RDCMD" ++ " " ++ device ∧
    wrcmd.text =
      "WRCMD" ++ " " ++ device ++ ", " ++ byteText regB0 ++ ", " ++ byteText regB1 ++ ", " ++
        byteText regB2 ++ ", " ++ wordText dat0 ++ ", " ++ wordText dat1 ++ ", " ++ wordText dat2 ∧
    ∀ (l : Line) (i : Instr), l.instr = some i → decode l.assemble = .ok i ∧ i.wellFormed = true

/-! ## Reset, Accept, and the events of IDLE -/

/-- 10_state.md R26: every row of its table, and what `Reset` does to a command in progress. That
whether an outstanding write is performed follows the free `reached` of the accessor port, all of
its bytes or none, is the model's choice (notes/assumptions/8.md), as is that one trace is kept
across `Reset` and an abandoned transaction is not entered (notes/assumptions/9.md). -/
def Obligations.ResetSetsEveryElement : Prop :=
  ∀ s : State, s.cfg.wellFormed = true → s.host.rst = true →
    (s.st = .idle → s.host.cmdValid = false) → (s.st ≠ .idle → s.accPort.done = false) →
    ∃ t, step s = .next t ∧
      t.st = .idle ∧ t.ph = .one ∧ t.op = 0x00 ∧
      t.addr = 0 ∧ t.reg = 0 ∧ t.a = 0 ∧ t.b = 0 ∧ t.c = 0 ∧ t.d1 = 0 ∧ t.d2 = 0 ∧
      t.rounds = 0 ∧ t.ffc = 0 ∧ t.prevIdle = false ∧
      t.status.code = 0 ∧ t.issued = 0 ∧ t.resValid = false ∧ t.result = none ∧
      t.cmdReady = true ∧ t.accValid = false ∧
      t.cfg = s.cfg ∧ t.trace = s.trace ∧
      (s.request = none → t.written = s.written) ∧
      ∀ req, s.request = some req →
        t.written = if s.accPort.reached then Memory.writeAll s.written req.cells else s.written

/-- THE MODEL'S CHOICE (notes/assumptions/11.md): where `rst` is high together with an offer or an
answer, the event is `Reset`, and neither the offer nor the answer is seen. -/
def Obligations.ResetWinsOverOfferAndAnswer : Prop :=
  ∀ (s : State) (valid : Bool) (cw : CmdWord) (p q : AccPort) (rest : List AccPort),
    s.cfg.wellFormed = true → s.host.rst = true → s.env = p :: rest → q.reached = p.reached →
    ∃ t u, step s = .next t ∧
      step { s with host := ⟨true, valid, cw⟩, env := q :: rest } = .next u ∧
      { t with host := u.host, env := u.env } = u

/-- 30_encoding.md R50, R51: `Accept` loads every latch from its field, so the latched word is the
accepted word. That a reserved word is loaded too is the model's reading (notes/assumptions/10.md). -/
def Obligations.AcceptLatchesTheWholeWord : Prop :=
  ∀ s t : State, s.st = .idle → s.host.rst = false → s.host.cmdValid = true →
    step s = .next t →
    let cw := s.host.cmdWord
    t.op = opField cw ∧ t.addr = addrField cw ∧ t.reg = regField cw ∧
    t.a = aField cw ∧ t.b = bField cw ∧ t.c = cField cw ∧ t.latchedWord = cw

/-- 10_state.md R15, R24, R51, R70, R90, R102, R106: the `Accept` of each command, whole. -/
def Obligations.AcceptOfEachCommand : Prop :=
  ∀ (s : State) (d : DevAddr) (r : BitVec REG_W) (x y z : Word) (b0 b1 b2 : Byte),
    s.st = .idle →
    let taken := { s with
      host := s.nextHost true, hostNext := s.hostNext.tail, resValid := false, issued := 0,
      ph := .one, addr := d.bits, a := x, b := y, c := z }
    let polling := { taken with st := .poll, rounds := 0, ffc := 0, prevIdle := false }
    exec (.waitrd d r x y z) s = .next { polling with op := opWaitrd, reg := r } ∧
    exec (.waitwr d r x y z) s = .next { polling with op := opWaitwr, reg := r } ∧
    exec (.issuerd d x y r z) s = .next { taken with op := opIssuerd, reg := r, st := .sel } ∧
    exec (.issuewr d x y r z) s = .next { taken with op := opIssuewr, reg := r, st := .sel } ∧
    exec (.rdcmd d r x y z) s = .next { taken with op := opRdcmd, reg := r, st := .rd1 } ∧
    exec (.wrcmd d b0 b1 b2 x y z) s =
      .next { polling with op := opWrcmd, reg := b2 ++ b1 ++ b0 }

/-- 30_encoding.md R56: `Accept` of a reserved opcode ends in the same step with IllegalCommand and
makes no transaction; 250 opcodes are reserved. -/
def Obligations.ReservedOpcodeEndsWithIllegalCommand : Prop :=
  ((List.range 256).filter fun n => !definedOpcodes.contains (BitVec.ofNat 8 n)).length = 250 ∧
  ∀ s : State, s.cfg.wellFormed = true → s.st = .idle → s.host.rst = false →
    s.host.cmdValid = true → opField s.host.cmdWord ∉ definedOpcodes →
    ∃ t, step s = .next t ∧ t.status = .illegalCommand ∧ t.issued = 0 ∧ t.resValid = true ∧
      t.st = .idle ∧ t.trace = s.trace ∧ t.written = s.written ∧ t.env = s.env ∧
      t.draws = s.draws ∧ t.d1 = s.d1 ∧ t.d2 = s.d2

/-- 60_exceptions.md R126: IllegalCommand is raised at `Accept` only, without a transaction: a step
of a command in progress never ends it so, and `Accept` of a defined opcode does not either. -/
def Obligations.IllegalCommandOnlyAtAccept : Prop :=
  ∀ s t : State, s.Inv → step s = .next t → s.host.rst = false →
    t.resValid = true → t.status = .illegalCommand →
    s.st = .idle ∧ t.trace = s.trace ∧ t.written = s.written ∧
    ((s.host.cmdValid = false ∧ s.resValid = true ∧ s.status = .illegalCommand) ∨
     (s.host.cmdValid = true ∧ opField s.host.cmdWord ∉ definedOpcodes))

/-- R12, R25, R130: with nothing offered and no `Reset`, a step in IDLE leaves all but the host's
port as it is; the result stays. That such a step exists is the model's choice
(notes/assumptions/1.md). -/
def Obligations.IdleWithoutOfferChangesNothing : Prop :=
  ∀ s : State, s.cfg.wellFormed = true → s.st = .idle → s.host.rst = false →
    s.host.cmdValid = false →
    ∃ t, step s = .next t ∧ s.EqButHost t ∧ t.result = s.result

/-- 00_scope.md R5: its constraints, that the hardware's values meet them, and that a configuration
that breaks one is refused. -/
def Obligations.BadConfigurationIsRefused : Prop :=
  (∀ p : Params,
    p.constraintsOk = true ↔
      (1 ≤ p.pollBudget ∧ p.pollBudget < 2 ^ p.roundsW) ∧
      (1 ≤ p.ffLimit ∧ p.ffLimit < 2 ^ p.ffcW) ∧
      [p.ctrlOff, p.dout1Off, p.dout2Off, p.selOff, p.dinOff].Nodup ∧
      (∀ o ∈ [p.dout1Off, p.dout2Off, p.selOff, p.dinOff], 4 ∣ o.toNat) ∧
      (∀ o ∈ [p.ctrlOff, p.dout1Off, p.dout2Off, p.selOff, p.dinOff], o.toNat < 0x100) ∧
      ((∃ k, k < 8 ∧ p.readBusy = (1 : Byte) <<< k) ∧
        (∃ k, k < 8 ∧ p.writeBusy = (1 : Byte) <<< k) ∧ p.readBusy ≠ p.writeBusy) ∧
      p.absentByte &&& p.readBusy ≠ 0 ∧ p.absentByte &&& p.writeBusy ≠ 0) ∧
  Params.hardware.constraintsOk = true ∧
  ∀ s : State, s.cfg.constraintsOk = false → step s = .refused .badConfiguration

/-- R12, R24, R43: the current word's instruction is what a step runs: in IDLE the offered word,
in a command the latched one. -/
def Obligations.StepRunsTheDecodedInstruction : Prop :=
  ∀ (s : State) (i : Instr), s.cfg.wellFormed = true → s.host.rst = false →
    (s.st = .idle → s.host.cmdValid = true) → decode s.currentWord = .ok i →
    step s = exec i s

/-- R43, R51: while a command runs, its instruction stays the current one, whatever the command port
shows: after the `Accept` of `i` the decoder reads `i` from the latches, and every further step of
the command (no `Reset`) leaves what it reads. -/
def Obligations.AcceptedInstructionStaysCurrent : Prop :=
  (∀ (s t : State) (i : Instr), s.st = .idle → exec i s = .next t →
    t.st ≠ .idle ∧ decode t.currentWord = .ok i) ∧
  ∀ s t : State, s.st ≠ .idle → s.host.rst = false → step s = .next t → t.st ≠ .idle →
    decode t.currentWord = decode s.currentWord

/-- R24, R152: a command offered while one is in progress is not taken and has no effect. -/
def Obligations.OfferWhileBusyHasNoEffect : Prop :=
  ∀ (s t : State) (valid : Bool) (cw : CmdWord), s.st ≠ .idle → s.host.rst = false →
    step s = .next t →
    ∃ u, step { s with host := ⟨false, valid, cw⟩ } = .next u ∧ t.EqButHost u

/-! ## The poller -/

/-- R79, R80, R81: each sample of a WAITRD, and of a WAITWR. -/
def Obligations.WaitSample : Prop :=
  ∀ (s : State) (d : DevAddr) (r : BitVec REG_W) (x y z : Word),
    s.st = .poll → s.ph = .one → s.AnswersOk →
    let completeOk := fun u : State => { u with status := .ok, resValid := true, st := .idle }
    let u := s.answered (.read .byte s.addr s.cfg.ctrlOff)
    (s.op = opWaitrd → exec (.waitrd d r x y z) s =
      .next (State.pollAnswer s.cfg.readBusy completeOk s.sample u)) ∧
    (s.op = opWaitwr → exec (.waitwr d r x y z) s =
      .next (State.pollAnswer s.cfg.writeBusy completeOk s.sample u))

/-- R79, R102: each sample of either poll of a WRCMD; success goes on to the issue of its phase. -/
def Obligations.WrcmdSample : Prop :=
  ∀ (s : State) (d : DevAddr) (b0 b1 b2 : Byte) (x y z : Word),
    s.st = .poll → s.op = opWrcmd → s.AnswersOk →
    exec (.wrcmd d b0 b1 b2 x y z) s = .next
      (State.pollAnswer s.cfg.writeBusy (fun u => { u with st := .sel }) s.sample
        (s.answered (.read .byte s.addr s.cfg.ctrlOff)))

/-- 40_poller.md R73: at every poll entry the poll state is zeroed, whatever an earlier poll left. -/
def Obligations.EveryPollEntryStartsFromZero : Prop :=
  ∀ s t : State, step s = .next t → s.st ≠ .poll → t.st = .poll →
    t.rounds = 0 ∧ t.ffc = 0 ∧ t.prevIdle = false

/-- R77, R127: a WAITRD or WAITWR ends with OK exactly when its sample and the one before it were
idle; R127 (b): also on the last sample of the budget. -/
def Obligations.WaitSucceedsExactlyOnSecondIdleSample : Prop :=
  ∀ s t : State, s.Inv → s.host.rst = false → s.st = .poll →
    (s.op = opWaitrd ∨ s.op = opWaitwr) → s.AnswersOk → step s = .next t →
    ((t.st = .idle ∧ t.status = .ok) ↔
      (s.sample &&& busyMask s.cfg s.op = 0 ∧ s.prevIdle = true))

/-- R75, R124, R127 (a): DeviceUnresponsive is raised by the poll only, and exactly by the sample
that brings the all-ones count to its limit, on the last sample of the budget too. In IDLE it is
never raised: there it is the result of the command before. -/
def Obligations.UnresponsiveExactlyAtTheLimit : Prop :=
  ∀ s t : State, s.Inv → s.host.rst = false → step s = .next t →
    (s.st ≠ .idle →
      ((t.st = .idle ∧ t.status = .deviceUnresponsive) ↔
        (s.st = .poll ∧ s.AnswersOk ∧ s.sample = s.cfg.absentByte ∧ s.ffc + 1 = s.cfg.ffLimit))) ∧
    (s.st = .idle → t.resValid = true → t.status = .deviceUnresponsive →
      s.host.cmdValid = false ∧ s.resValid = true ∧ s.status = .deviceUnresponsive)

/-- R78, R123: Timeout is raised by the poll only, and exactly when the sample neither met the
all-ones limit nor confirmed idle, it was the last of the budget, and the round is closed. In IDLE
it is never raised: there it is the result of the command before. -/
def Obligations.TimeoutExactlyAtTheBudget : Prop :=
  ∀ s t : State, s.Inv → s.host.rst = false → step s = .next t →
    let idle := s.sample &&& busyMask s.cfg s.op = 0
    (s.st ≠ .idle →
      ((t.st = .idle ∧ t.status = .timeout) ↔
        (s.st = .poll ∧ s.AnswersOk ∧
         ¬ (s.sample = s.cfg.absentByte ∧ s.ffc + 1 = s.cfg.ffLimit) ∧
         ¬ (idle ∧ s.prevIdle = true) ∧
         ((s.cfg.pairedConfirm = false ∧ s.rounds + 1 = s.cfg.pollBudget) ∨
          (s.cfg.pairedConfirm = true ∧ ¬ idle ∧
            s.rounds + (if s.prevIdle then 0 else 1) = s.cfg.pollBudget))))) ∧
    (s.st = .idle → t.resValid = true → t.status = .timeout →
      s.host.cmdValid = false ∧ s.resValid = true ∧ s.status = .timeout)

/-- R77: two idle samples after `Accept` end a WAITRD or WAITWR with OK, in two samples, with no
trigger. 95 V1, V6, V8 to V10. -/
def Obligations.WaitCompletesOnTwoIdleSamples : Prop :=
  ∀ (s : State) (i : Instr) (u v : Byte) (rest : List AccPort),
    s.Offers i → (i.opcode = opWaitrd ∨ i.opcode = opWaitwr) →
    u &&& busyMask s.cfg i.opcode = 0 → v &&& busyMask s.cfg i.opcode = 0 →
    (2 ≤ s.cfg.pollBudget ∨ s.cfg.pairedConfirm = true) →
    s.env = sampleOf u :: sampleOf v :: rest →
    ∃ t, Host.Core.run Sys2Proof.core 3 s = .next t ∧
      t.st = .idle ∧ t.result = some ⟨.ok, 0, none⟩ ∧ t.env = rest ∧
      t.trace = s.trace ++ [sampleEntry s.cfg (addrField s.host.cmdWord) u,
        sampleEntry s.cfg (addrField s.host.cmdWord) v] ∧
      t.written = s.written

/-- R75 (the document's property S3): a device that reads `ABSENT_BYTE` makes a WAITRD or WAITWR
fail with DeviceUnresponsive after exactly `FF_LIMIT` samples. 95 V4. -/
def Obligations.AbsentDeviceEndsAtTheLimit : Prop :=
  ∀ (s : State) (i : Instr) (rest : List AccPort),
    s.Offers i → (i.opcode = opWaitrd ∨ i.opcode = opWaitwr) →
    s.cfg.ffLimit ≤ s.cfg.pollBudget →
    s.env = List.replicate s.cfg.ffLimit (sampleOf s.cfg.absentByte) ++ rest →
    ∃ t, Host.Core.run Sys2Proof.core (1 + s.cfg.ffLimit) s = .next t ∧
      t.st = .idle ∧ t.result = some ⟨.deviceUnresponsive, 0, none⟩ ∧ t.env = rest ∧
      t.trace = s.trace ++ List.replicate s.cfg.ffLimit
        (sampleEntry s.cfg (addrField s.host.cmdWord) s.cfg.absentByte) ∧
      t.written = s.written

/-- R78 (the document's property S4): a device that never clears its busy bit, and never reads
`ABSENT_BYTE`, makes a WAITRD or WAITWR fail with Timeout after exactly `POLL_BUDGET` samples, under
either value of `PAIRED_CONFIRM`. 95 V5, V7. -/
def Obligations.StuckDeviceTimesOutAfterTheBudget : Prop :=
  ∀ (s : State) (i : Instr) (samples : List Byte) (rest : List AccPort),
    s.Offers i → (i.opcode = opWaitrd ∨ i.opcode = opWaitwr) →
    samples.length = s.cfg.pollBudget →
    (∀ v ∈ samples, v &&& busyMask s.cfg i.opcode ≠ 0 ∧ v ≠ s.cfg.absentByte) →
    s.env = samples.map sampleOf ++ rest →
    ∃ t, Host.Core.run Sys2Proof.core (1 + s.cfg.pollBudget) s = .next t ∧
      t.st = .idle ∧ t.result = some ⟨.timeout, 0, none⟩ ∧ t.env = rest ∧
      t.trace = s.trace ++
        samples.map (sampleEntry s.cfg (addrField s.host.cmdWord)) ∧
      t.written = s.written

/-- R74: the two values of `PAIRED_CONFIRM` differ only in when Timeout is raised. Two states that
differ only in that parameter and in the round count take steps that again differ only there,
unless a poll ends with Timeout in this step under one of the two. -/
def Obligations.PairedConfirmOnlyMovesTimeout : Prop :=
  ∀ s1 s2 t1 t2 : State, s1.Inv → s2.Inv → s1.EqButPairing s2 →
    step s1 = .next t1 → step s2 = .next t2 →
    (s1.st = .poll ∧ t1.st = .idle ∧ t1.status = .timeout) ∨
    (s2.st = .poll ∧ t2.st = .idle ∧ t2.status = .timeout) ∨
    t1.EqButPairing t2

/-! ## The issuer -/

/-- R91 to R93: the three writes of an ISSUERD or ISSUEWR, each answered without failure; the two
differ in the byte of the control write only. -/
def Obligations.IssueWrites : Prop :=
  ∀ (s : State) (d : DevAddr) (x y : Word) (r : BitVec REG_W) (z : Word) (i : Instr) (flag : Byte),
    (i = .issuerd d x y r z ∧ flag = s.cfg.readBusy ∨
     i = .issuewr d x y r z ∧ flag = s.cfg.writeBusy) →
    s.op = i.opcode → s.ph = .one → s.AnswersOk →
    (s.st = .sel → exec i s =
      .next { s.answered (.write .word s.addr s.cfg.selOff s.a) with st := .dat }) ∧
    (s.st = .dat → exec i s =
      .next { s.answered (.write .word s.addr s.cfg.dinOff s.b) with st := .ctl }) ∧
    (s.st = .ctl → exec i s =
      .next { s.answered (.write .byte s.addr s.cfg.ctrlOff (flag.setWidth 32)) with
        issued := s.issued + 1, status := .ok, resValid := true, st := .idle })

/-- R91 to R94: an ISSUERD or ISSUEWR whose writes are answered makes exactly the three writes, in
order, reads nothing, and completes with OK and `issued` 1. 95 V31, V32, V36, V37, V61. -/
def Obligations.IssueRunsToItsEnd : Prop :=
  ∀ (s : State) (d : DevAddr) (x y : Word) (r : BitVec REG_W) (z p q w : Word)
    (rest : List AccPort) (i : Instr) (flag : Byte),
    s.Offers i →
    (i = .issuerd d x y r z ∧ flag = s.cfg.readBusy ∨
     i = .issuewr d x y r z ∧ flag = s.cfg.writeBusy) →
    s.env = answerOk p :: answerOk q :: answerOk w :: rest →
    ∃ t, Host.Core.run Sys2Proof.core 4 s = .next t ∧
      t.st = .idle ∧ t.result = some ⟨.ok, 1, none⟩ ∧ t.env = rest ∧
      t.trace = s.trace ++ (issueWrites s.cfg d.bits x y flag).map doneWrite

/-! ## The sequencer -/

/-- R91, R102: the three writes of phase 1 of a WRCMD and the three of phase 2. -/
def Obligations.WrcmdWrites : Prop :=
  ∀ (s : State) (d : DevAddr) (b0 b1 b2 : Byte) (x y z : Word),
    s.op = opWrcmd → s.AnswersOk →
    let i := Instr.wrcmd d b0 b1 b2 x y z
    let trigger := s.answered (.write .byte s.addr s.cfg.ctrlOff (s.cfg.writeBusy.setWidth 32))
    (s.ph = .one → s.st = .sel → exec i s =
      .next { s.answered (.write .word s.addr s.cfg.selOff (s.reg.setWidth 32)) with
        st := .dat }) ∧
    (s.ph = .one → s.st = .dat → exec i s =
      .next { s.answered (.write .word s.addr s.cfg.dinOff s.a) with st := .ctl }) ∧
    (s.ph = .one → s.st = .ctl → exec i s =
      .next { trigger with
        issued := s.issued + 1, ph := .two, st := .poll, rounds := 0, ffc := 0,
        prevIdle := false }) ∧
    (s.ph = .two → s.st = .sel → exec i s =
      .next { s.answered (.write .word s.addr s.cfg.selOff s.b) with st := .dat }) ∧
    (s.ph = .two → s.st = .dat → exec i s =
      .next { s.answered (.write .word s.addr s.cfg.dinOff s.c) with st := .ctl }) ∧
    (s.ph = .two → s.st = .ctl → exec i s =
      .next { trigger with
        issued := s.issued + 1, status := .ok, resValid := true, st := .idle })

/-- 42_sequences.md R101: the phase 1 selector is the register number zero-extended. -/
def Obligations.PhaseOneSelectorIsZeroExtended : Prop :=
  ∀ s : State, s.op = opWrcmd → s.ph = .one → s.st = .sel →
    ∃ v : Word, s.request = some (.write .word s.addr s.cfg.selOff v) ∧
      v.toNat = s.reg.toNat ∧ v.extractLsb' 24 8 = 0 ∧ v.extractLsb' 0 24 = s.reg

/-- R106: the three transactions of an RDCMD, each answered without failure. -/
def Obligations.RdcmdTransactions : Prop :=
  ∀ (s : State) (d : DevAddr) (r : BitVec REG_W) (x y z : Word),
    s.op = opRdcmd → s.ph = .one → s.AnswersOk →
    (s.st = .rd1 → exec (.rdcmd d r x y z) s =
      .next { s.answered (.read .word s.addr s.cfg.dout1Off) with
        d1 := s.accPort.rdata, st := .rd2 }) ∧
    (s.st = .rd2 → exec (.rdcmd d r x y z) s =
      .next { s.answered (.read .word s.addr s.cfg.dout2Off) with
        d2 := s.accPort.rdata, st := .ack }) ∧
    (s.st = .ack → exec (.rdcmd d r x y z) s =
      .next { s.answered (.write .byte s.addr s.cfg.ctrlOff (s.cfg.readBitFlag.setWidth 32)) with
        status := .ok, resValid := true, st := .idle })

/-- R106 to R108: an RDCMD whose transactions are answered reads 0xF0, then 0xF4, then
acknowledges; its result is the two words, raw, and `issued` 0. 95 V40, V41. -/
def Obligations.RdcmdRunsToItsEnd : Prop :=
  ∀ (s : State) (d : DevAddr) (r : BitVec REG_W) (x y z v1 v2 w : Word) (rest : List AccPort),
    s.Offers (.rdcmd d r x y z) →
    s.env = answerOk v1 :: answerOk v2 :: answerOk w :: rest →
    ∃ t, Host.Core.run Sys2Proof.core 4 s = .next t ∧
      t.st = .idle ∧ t.result = some ⟨.ok, 0, some (v1, v2)⟩ ∧ t.env = rest ∧
      t.trace = s.trace ++
        [⟨.read .word d.bits s.cfg.dout1Off, .value v1⟩,
         ⟨.read .word d.bits s.cfg.dout2Off, .value v2⟩,
         doneWrite (.write .byte d.bits s.cfg.ctrlOff (s.cfg.readBitFlag.setWidth 32))]

/-- R102 (f): a WRCMD whose four samples are idle and whose writes are answered takes 10
transactions and ends with OK and `issued` 2. 95 V70, P1. -/
def Obligations.WrcmdRunsToItsEnd : Prop :=
  ∀ (s : State) (d : DevAddr) (b0 b1 b2 : Byte) (x y z : Word) (u1 u2 u3 u4 : Byte)
    (p1 p2 p3 p4 p5 p6 : Word) (rest : List AccPort),
    s.Offers (.wrcmd d b0 b1 b2 x y z) →
    (∀ u ∈ [u1, u2, u3, u4], u &&& s.cfg.writeBusy = 0) →
    (2 ≤ s.cfg.pollBudget ∨ s.cfg.pairedConfirm = true) →
    s.env = sampleOf u1 :: sampleOf u2 :: answerOk p1 :: answerOk p2 :: answerOk p3 ::
      sampleOf u3 :: sampleOf u4 :: answerOk p4 :: answerOk p5 :: answerOk p6 :: rest →
    ∃ t, Host.Core.run Sys2Proof.core 11 s = .next t ∧
      t.st = .idle ∧ t.result = some ⟨.ok, 2, none⟩ ∧ t.env = rest ∧
      t.trace = s.trace ++
        [sampleEntry s.cfg d.bits u1, sampleEntry s.cfg d.bits u2] ++
        (issueWrites s.cfg d.bits ((internalRegisterNumber b0 b1 b2).setWidth 32) x
          s.cfg.writeBusy).map doneWrite ++
        [sampleEntry s.cfg d.bits u3, sampleEntry s.cfg d.bits u4] ++
        (issueWrites s.cfg d.bits y z s.cfg.writeBusy).map doneWrite

/-- 42_sequences.md R105: the trace of every WRCMD that ends with OK, over every run of any length
and any answers, is samples, the three writes of phase 1, samples, the three writes of phase 2. -/
def Obligations.OkWrcmdWritesExactlySix : Prop :=
  ∀ (s t : State) (n : Nat) (d : DevAddr) (b0 b1 b2 : Byte) (x y z : Word),
    s.Offers (.wrcmd d b0 b1 b2 x y z) → 0 < n →
    Host.Core.run Sys2Proof.core n s = .next t →
    t.st = .idle → t.resValid = true → t.status = .ok →
    ∃ l1 l2 : List Byte,
      t.trace = s.trace ++ l1.map (sampleEntry s.cfg d.bits) ++
        (issueWrites s.cfg d.bits ((internalRegisterNumber b0 b1 b2).setWidth 32) x
          s.cfg.writeBusy).map doneWrite ++
        l2.map (sampleEntry s.cfg d.bits) ++
        (issueWrites s.cfg d.bits y z s.cfg.writeBusy).map doneWrite

/-- R103, R121, R128: however a WRCMD ends, its completed writes are a first part of the six, and
`issued` is the number of triggers among them; after Timeout or DeviceUnresponsive they are none of
the six (`issued` 0) or the three of phase 1 (`issued` 1, the partial write). -/
def Obligations.FailedWrcmdIsAnExactFirstPart : Prop :=
  ∀ (s t : State) (n : Nat) (d : DevAddr) (b0 b1 b2 : Byte) (x y z : Word),
    s.Offers (.wrcmd d b0 b1 b2 x y z) → 0 < n →
    Host.Core.run Sys2Proof.core n s = .next t →
    t.st = .idle →
    ∃ l, t.trace = s.trace ++ l ∧
      let done := completedWrites l
      let six := wrcmdWrites s.cfg d.bits (internalRegisterNumber b0 b1 b2) x y z
      done <+: six ∧ t.resValid = true ∧ t.issued.toNat = triggers s.cfg done ∧
      (t.status = .timeout ∨ t.status = .deviceUnresponsive →
        (t.issued = 0 ∧ done = []) ∨ (t.issued = 1 ∧ done = six.take 3)) ∧
      (t.status = .accessFailure → t.issued.toNat ≤ 1) ∧
      (t.status = .ok ↔ done = six)

/-- R93, R102 (95 P6): a host that gives WAITWR, ISSUEWR, WAITWR, ISSUEWR with the same values makes
the same trace as WRCMD, when every poll succeeds, whatever samples each poll takes (`l1` and `l2`,
read off the trace of the WRCMD). The host's script is the model's form of a host
(notes/assumptions/3.md). -/
def Obligations.ComposedWriteHasTheTraceOfWrcmd : Prop :=
  ∀ (s t : State) (d : DevAddr) (b0 b1 b2 : Byte) (x y z : Word) (l1 l2 : List Byte)
    (p1 p2 p3 p4 p5 p6 : Word) (rest : List AccPort),
    s.Offers (.wrcmd d b0 b1 b2 x y z) →
    s.env = l1.map sampleOf ++ answerOk p1 :: answerOk p2 :: answerOk p3 ::
      (l2.map sampleOf ++ answerOk p4 :: answerOk p5 :: answerOk p6 :: rest) →
    let writes1 := issueWrites s.cfg d.bits ((internalRegisterNumber b0 b1 b2).setWidth 32) x
      s.cfg.writeBusy
    let writes2 := issueWrites s.cfg d.bits y z s.cfg.writeBusy
    Host.Core.run Sys2Proof.core (l1.length + l2.length + 7) s = .next t →
    t.trace = s.trace ++ l1.map (sampleEntry s.cfg d.bits) ++ writes1.map doneWrite ++
      l2.map (sampleEntry s.cfg d.bits) ++ writes2.map doneWrite →
    let give (i : Instr) : HostPort := ⟨false, true, encode i⟩
    let quiet (n : Nat) := List.replicate n HostPort.quiet
    let wait := Instr.waitwr d 0 0 0 0
    let first := Instr.issuewr d ((internalRegisterNumber b0 b1 b2).setWidth 32) x 0 0
    let second := Instr.issuewr d y z 0 0
    let composed := { s with
      host := give wait,
      hostNext := quiet l1.length ++ give first :: quiet 3 ++ give wait :: quiet l2.length ++
        give second :: quiet 3 }
    ∃ u, Host.Core.run Sys2Proof.core (l1.length + l2.length + 10) composed = .next u ∧
      u.trace = t.trace ∧ u.written = t.written ∧ u.env = t.env ∧ u.st = .idle ∧ u.status = .ok

/-! ## Exceptions and the result -/

/-- 60_exceptions.md R122, 40_poller.md R76: whenever the enabled transaction is answered with
failure, in any state and for any command, the command ends in that step with AccessFailure, and
nothing the transaction would have written is written: neither poll state, nor `x[D1]`, `x[D2]`, nor
`issued`. -/
def Obligations.FailedTransactionEndsTheCommand : Prop :=
  ∀ (s : State) (req : Request), s.cfg.wellFormed = true → s.host.rst = false →
    s.request = some req → s.AnswersFail →
    ∃ t, step s = .next t ∧ t.st = .idle ∧ t.resValid = true ∧ t.status = .accessFailure ∧
      t.rounds = s.rounds ∧ t.ffc = s.ffc ∧ t.prevIdle = s.prevIdle ∧
      t.d1 = s.d1 ∧ t.d2 = s.d2 ∧ t.issued = s.issued ∧ t.ph = s.ph ∧
      t.latchedWord = s.latchedWord ∧ t.cfg = s.cfg ∧
      t.trace = s.trace ++ [⟨req, .fail⟩]

/-- R128, R120: `raise E` sets `status` to E's code, `res_valid` and `st`, and nothing else;
`complete(OK)` is the same step with OK. -/
def Obligations.RaiseSetsThreeElements : Prop :=
  ∀ (s : State) (e : Cause),
    State.raise e s = { s with status := e.status, resValid := true, st := .idle } ∧
    State.complete s = { s with status := .ok, resValid := true, st := .idle } ∧
    (State.raise .accessFailure s).resStatus = 3 ∧ (State.raise .timeout s).resStatus = 1 ∧
    (State.raise .deviceUnresponsive s).resStatus = 2 ∧
    (State.raise .illegalCommand s).resStatus = 4 ∧ (State.complete s).resStatus = 0

/-- R25: a command completes in the step that brings it to IDLE, with `res_valid` set; as long as
it is in progress `res_valid` is 0. -/
def Obligations.CompletionSetsTheResult : Prop :=
  ∀ s t : State, s.Inv → step s = .next t → s.host.rst = false →
    (s.st ≠ .idle → (t.st = .idle ↔ t.resValid = true)) ∧ (t.st ≠ .idle → t.resValid = false)

/-- R18, R57, D14: the data words of a result are there exactly for an RDCMD that ended with OK. -/
def Obligations.DataOnlyAfterSuccessfulRdcmd : Prop :=
  ∀ (s : State) (r : CommandResult), s.result = some r →
    r.status = s.status ∧ r.issued = s.issued ∧
    (r.data.isSome = true ↔ s.op = opRdcmd ∧ s.status = .ok) ∧
    ∀ w, r.data = some w → w = (s.d1, s.d2)

/-- R13, R106: no step but an answered RD1 writes `x[D1]`, and none but an answered RD2 writes
`x[D2]`; `Reset` apart. -/
def Obligations.OnlyRdcmdWritesTheResultLatches : Prop :=
  ∀ s t : State, step s = .next t → s.host.rst = false →
    (t.d1 ≠ s.d1 → s.st = .rd1 ∧ s.op = opRdcmd ∧ s.AnswersOk ∧ t.d1 = s.accPort.rdata) ∧
    (t.d2 ≠ s.d2 → s.st = .rd2 ∧ s.op = opRdcmd ∧ s.AnswersOk ∧ t.d2 = s.accPort.rdata)

/-- R18, R91: `issued` changes only at `Accept`, which zeroes it, and at an answered CTL write, which
adds 1; `Reset` apart. -/
def Obligations.IssuedCountsAnsweredTriggers : Prop :=
  ∀ s t : State, step s = .next t → s.host.rst = false → t.issued ≠ s.issued →
    (s.st = .idle ∧ s.host.cmdValid = true ∧ t.issued = 0) ∨
    (s.st = .ctl ∧ s.AnswersOk ∧ t.issued = s.issued + 1)

/-! ## The accessor, memory, and frames -/

/-- 10_state.md R14: the enabled transaction of each sequencer state that R15 lists. -/
def Obligations.EnabledTransactionOfEachState : Prop :=
  ∀ s : State, pcLegal s.op s.st s.ph = true →
    (s.st = .idle → s.request = none) ∧
    (s.st = .poll → s.request = some (.read .byte s.addr s.cfg.ctrlOff)) ∧
    (s.st = .sel → s.request = some (.write .word s.addr s.cfg.selOff s.selector)) ∧
    (s.st = .dat → s.request = some (.write .word s.addr s.cfg.dinOff s.dataWord)) ∧
    (s.st = .ctl → ∃ flag : Byte,
      s.request = some (.write .byte s.addr s.cfg.ctrlOff (flag.setWidth 32)) ∧
      flag = if s.op = opIssuerd then s.cfg.readBusy else s.cfg.writeBusy) ∧
    (s.st = .rd1 → s.request = some (.read .word s.addr s.cfg.dout1Off)) ∧
    (s.st = .rd2 → s.request = some (.read .word s.addr s.cfg.dout2Off)) ∧
    (s.st = .ack → s.request =
      some (.write .byte s.addr s.cfg.ctrlOff (s.cfg.readBitFlag.setWidth 32)))

/-- R31, R34, R39, R59: every transaction the block can ask for is one of the register map, in its
direction and width, addressed to the latched function. -/
def Obligations.RequestsStayInTheRegisterMap : Prop :=
  ∀ (s : State) (req : Request), s.request = some req →
    req.allowed s.cfg ∧ req.addr = s.addr ∧ s.st ≠ .idle

/-- R23: the accessor port's output signals show the enabled transaction. That `acc_wdata` has no
value for a read, and that `acc_valid` (shown between two steps) is 1 exactly outside IDLE, is the
model's choice (notes/assumptions/21.md). -/
def Obligations.PortsShowTheRequest : Prop :=
  ∀ s : State,
    (s.cmdReady = true ↔ s.st = .idle) ∧ (s.accValid = true ↔ s.st ≠ .idle) ∧
    (∀ size addr off, s.request = some (.read size addr off) →
      s.accWrite = some 0 ∧ s.accSize = some (match size with | .byte => 0 | .word => 1) ∧
      s.accAddr = addr ∧ s.accOff = some off ∧ s.accWdata = none) ∧
    (∀ size addr off v, s.request = some (.write size addr off v) →
      s.accWrite = some 1 ∧ s.accSize = some (match size with | .byte => 0 | .word => 1) ∧
      s.accAddr = addr ∧ s.accOff = some off ∧ s.accWdata = some v ∧
      (size = .byte → v.extractLsb' 8 24 = 0))

/-- R32, R40, R47: a step records at most one transaction, at the end of the trace; it is the
enabled one, it is recorded exactly when the environment answers, and nothing else is recorded. That
`Reset` leaves the trace as it is, and that an answer arriving with `Reset` is not recorded, is the
model's choice (notes/assumptions/9.md, notes/assumptions/11.md). -/
def Obligations.StepRecordsTheEnabledTransaction : Prop :=
  ∀ s t : State, step s = .next t →
    (t.trace = s.trace ∧ (s.st = .idle ∨ s.host.rst = true ∨ s.accPort.done = false)) ∨
    (s.host.rst = false ∧ ∃ req, s.request = some req ∧
      ((s.AnswersOk ∧ t.trace = s.trace ++ [⟨req, req.okReply s.accPort.rdata⟩]) ∨
       (s.AnswersFail ∧ t.trace = s.trace ++ [⟨req, .fail⟩])))

/-- R13, R22, R43: the operand latches and `op` change only at `Accept` and `Reset`, and the
configuration never. -/
def Obligations.LatchesChangeOnlyAtAccept : Prop :=
  ∀ s t : State, step s = .next t →
    t.cfg = s.cfg ∧
    (s.host.rst = false → (s.st ≠ .idle ∨ s.host.cmdValid = false) →
      t.latchedWord = s.latchedWord ∧ t.op = s.op ∧ t.addr = s.addr ∧ t.reg = s.reg ∧
      t.a = s.a ∧ t.b = s.b ∧ t.c = s.c)

/-- R30, R31, R33, R36, over the model's record of the bytes written (notes/assumptions/7.md): the
frame of configuration space. Every byte outside those that the enabled
transaction stores to reads as before, and every byte if that is a read, if there is none, or if it
is not answered. -/
def Obligations.OnlyStoredBytesChange : Prop :=
  ∀ s t : State, step s = .next t →
    (∀ (req : Request) (k : Nat), s.request = some req → (∀ c ∈ req.cells, c.1 ≠ k) →
      Memory.read t.written k = Memory.read s.written k) ∧
    (s.request = none → t.written = s.written) ∧
    (s.host.rst = false → s.accPort.done = false → t.written = s.written) ∧
    (∀ size addr off, s.request = some (.read size addr off) → t.written = s.written)

/-- R34, R36, over the model's record of the bytes written (notes/assumptions/7.md): an answered
write leaves its value in the bytes of its offset, least significant byte
first, all four bytes of a 32-bit write and the one byte of an 8-bit write. -/
def Obligations.AnsweredWriteStoresItsBytes : Prop :=
  ∀ (s t : State) (addr : BitVec ADDR_W) (off : Byte) (v : Word), step s = .next t →
    s.host.rst = false → s.AnswersOk →
    (s.request = some (.write .word addr off v) → off.toNat + 3 < 256 →
      ∀ k : Nat, k < 4 →
        Memory.read t.written (addr.toNat * 256 + off.toNat + k) =
          some (v.extractLsb' (8 * k) 8)) ∧
    (s.request = some (.write .byte addr off v) →
      Memory.read t.written (addr.toNat * 256 + off.toNat) = some (v.extractLsb' 0 8))

/-- R33 (93 U10), in the model's form (notes/assumptions/8.md): a failed write left the device either
as it was or with the value written, and the block's own state does not depend on which. -/
def Obligations.FailedWriteLeavesBothOutcomes : Prop :=
  ∀ (s t : State) (req : Request) (p : AccPort) (rest : List AccPort),
    s.host.rst = false → s.request = some req → p.done = true → p.fail = true →
    s.env = p :: rest → step s = .next t →
    t.written = (if p.reached then Memory.writeAll s.written req.cells else s.written) ∧
    ∀ q : AccPort, q.done = true → q.fail = true →
      ∃ u, step { s with env := q :: rest } = .next u ∧
        { u with written := t.written } = t

/-- R12, R155 (93 U17): a transaction that is not answered leaves everything but the two ports'
inputs as it is: the block waits. That such a step exists is the model's choice
(notes/assumptions/1.md). -/
def Obligations.UnansweredTransactionWaits : Prop :=
  ∀ s : State, s.Inv → s.host.rst = false → s.st ≠ .idle → s.accPort.done = false →
    ∃ t, step s = .next t ∧
      { s with host := t.host, hostNext := t.hostNext, env := t.env, draws := t.draws } = t

/-- 30_encoding.md R54: the fields a format ignores have no effect. Two states in a command that
differ only in the latches of ignored fields take steps that again differ only there. -/
def Obligations.IgnoredFieldsHaveNoEffect : Prop :=
  ∀ s1 s2 t1 : State, s1.st ≠ .idle → s1.op ∈ definedOpcodes →
    s1.maskIgnored = s2.maskIgnored → step s1 = .next t1 →
    ∃ t2, step s2 = .next t2 ∧ t1.maskIgnored = t2.maskIgnored ∧
      t1.trace = t2.trace ∧ t1.result = t2.result

/-- R22: nothing of an earlier command reaches a later one. Two states in IDLE that agree on the
configuration, the ports, the trace and the bytes written agree on everything after `Accept`, but for
the result latches and `status`, which carry no meaning then, and the poll state of a command that is
not polling. -/
def Obligations.NothingCarriesOverToTheNextCommand : Prop :=
  ∀ (s1 s2 t1 : State) (i : Instr), s1.Offers i → s2.st = .idle →
    s1.cfg = s2.cfg → s1.host = s2.host → s1.hostNext = s2.hostNext → s1.env = s2.env →
    s1.draws = s2.draws → s1.trace = s2.trace → s1.written = s2.written →
    step s1 = .next t1 →
    ∃ t2, step s2 = .next t2 ∧
      { t2 with
        d1 := t1.d1, d2 := t1.d2, status := t1.status,
        rounds := if t1.st = .poll then t2.rounds else t1.rounds,
        ffc := if t1.st = .poll then t2.ffc else t1.ffc,
        prevIdle := if t1.st = .poll then t2.prevIdle else t1.prevIdle } = t1

/-! ## Invariants and bounds -/

/-- R26, R5: the state after reset meets the invariant. -/
def Obligations.ResetMeetsTheInvariant : Prop :=
  State.reset.Inv

/-- R5, R14, R15, R17, R18, R31: from EVERY state that meets the invariant, a step leads to one that
does: the sequencer state stays one of R15's, the counters never overflow, `res_valid` is 0 in a
command, `issued` counts its phases, the bytes written keep their form, and every transaction ever
made is one of the register map. -/
def Obligations.EveryStepKeepsTheInvariant : Prop :=
  ∀ s t : State, s.Inv → step s = .next t → t.Inv

/-- R47: outside IDLE, and only there, a transaction is enabled, and every answer to it leads to a
next state. From every state that meets the invariant there IS a next state, whatever the
environment and the host do: that there is one also in IDLE with nothing offered, and for a
transaction that is not answered, is the model's choice (notes/assumptions/1.md). -/
def Obligations.StepIsNeverStuck : Prop :=
  ∀ s : State, s.Inv →
    (∃ t, step s = .next t) ∧ (s.st ≠ .idle ↔ ∃ req, s.request = some req)

/-- R154: after `Accept` the bound on a command's transactions is its row of the table. -/
def Obligations.AcceptSetsTheTransactionBound : Prop :=
  ∀ (s t : State) (i : Instr), s.st = .idle → exec i s = .next t →
    t.remaining = mostTransactions s.cfg i

/-- R79 (the poll always ends), R154: every answered transaction of a command brings its end
nearer. -/
def Obligations.EveryAnswerReducesTheBound : Prop :=
  ∀ s t : State, s.Inv → s.host.rst = false → s.st ≠ .idle → s.accPort.done = true →
    step s = .next t → t.remaining < s.remaining ∧ (t.remaining = 0 ↔ t.st = .idle)

/-- R154, R155: every accepted command ends, with a result, after at most the number of transactions
in R154's table, provided the environment answers each. -/
def Obligations.EveryCommandEndsWithinItsBound : Prop :=
  ∀ (s : State) (i : Instr), s.Inv → s.Offers i →
    mostTransactions s.cfg i ≤ s.env.length → (∀ p ∈ s.env, p.done = true) →
    ∃ k t, k ≤ mostTransactions s.cfg i ∧ Host.Core.run Sys2Proof.core (1 + k) s = .next t ∧
      t.st = .idle ∧ t.resValid = true ∧ t.trace.length = s.trace.length + k
end

