-- ==== Sys2Proof/Laws/Codec.lean ====
section
/-! SUPPORT. The fields of a word put together from its fields, and what decoding a word says about
its opcode. -/

namespace Sys2Proof

open Config

/-- One bit of a word put together from its fields (30_encoding.md R50). -/
theorem packWord_getLsbD (op : Byte) (addr : BitVec ADDR_W) (reg : BitVec REG_W) (a b c : Word)
    (n : Nat) :
    (packWord op addr reg a b c).getLsbD n =
      if n < 32 then c.getLsbD n
      else if n < 64 then b.getLsbD (n - 32)
      else if n < 96 then a.getLsbD (n - 64)
      else if n < 120 then reg.getLsbD (n - 96)
      else if n < 136 then addr.getLsbD (n - 120)
      else op.getLsbD (n - 136) := by
  simp only [packWord, BitVec.getLsbD_append]
  simp only [REG_W, ADDR_W, Nat.sub_sub, Nat.reduceAdd]
  split_ifs <;> first | omega | rfl

variable (op : Byte) (addr : BitVec ADDR_W) (reg : BitVec REG_W) (a b c : Word)

@[simp] theorem opField_packWord : opField (packWord op addr reg a b c) = op := by
  refine BitVec.eq_of_getLsbD_eq fun i hi => ?_
  rw [opField, BitVec.getLsbD_extractLsb', packWord_getLsbD]
  split_ifs <;> first | omega | simp [hi]

@[simp] theorem addrField_packWord : addrField (packWord op addr reg a b c) = addr := by
  refine BitVec.eq_of_getLsbD_eq fun i hi => ?_
  rw [addrField, BitVec.getLsbD_extractLsb', packWord_getLsbD]
  have h : i < 16 := hi
  split_ifs <;> first | omega | simp [hi]

@[simp] theorem regField_packWord : regField (packWord op addr reg a b c) = reg := by
  refine BitVec.eq_of_getLsbD_eq fun i hi => ?_
  rw [regField, BitVec.getLsbD_extractLsb', packWord_getLsbD]
  have h : i < 24 := hi
  split_ifs <;> first | omega | simp [hi]

@[simp] theorem aField_packWord : aField (packWord op addr reg a b c) = a := by
  refine BitVec.eq_of_getLsbD_eq fun i hi => ?_
  rw [aField, BitVec.getLsbD_extractLsb', packWord_getLsbD]
  split_ifs <;> first | omega | simp [hi]

@[simp] theorem bField_packWord : bField (packWord op addr reg a b c) = b := by
  refine BitVec.eq_of_getLsbD_eq fun i hi => ?_
  rw [bField, BitVec.getLsbD_extractLsb', packWord_getLsbD]
  split_ifs <;> first | omega | simp [hi]

@[simp] theorem cField_packWord : cField (packWord op addr reg a b c) = c := by
  refine BitVec.eq_of_getLsbD_eq fun i hi => ?_
  rw [cField, BitVec.getLsbD_extractLsb', packWord_getLsbD]
  simp [hi]

/-- One bit of a field, by its place in the word. -/
theorem field_getLsbD (cw : CmdWord) (start len n : Nat) (h1 : start ≤ n) (h2 : n < start + len) :
    (cw.extractLsb' start len).getLsbD (n - start) = cw.getLsbD n := by
  rw [BitVec.getLsbD_extractLsb', Nat.add_sub_of_le h1, decide_eq_true (by omega), Bool.true_and]

/-- A word is its fields. -/
theorem packWord_fields (cw : CmdWord) :
    packWord (opField cw) (addrField cw) (regField cw) (aField cw) (bField cw) (cField cw) = cw := by
  refine BitVec.eq_of_getLsbD_eq fun i hi => ?_
  rw [packWord_getLsbD]
  split_ifs
  · exact field_getLsbD cw 0 32 i (by omega) (by omega)
  · exact field_getLsbD cw 32 32 i (by omega) (by omega)
  · exact field_getLsbD cw 64 32 i (by omega) (by omega)
  · exact field_getLsbD cw 96 24 i (by omega) (by omega)
  · exact field_getLsbD cw 120 16 i (by omega) (by omega)
  · exact field_getLsbD cw 136 8 i (by omega) (by omega)

/-- The opcode of a decoded word (R52). -/
theorem decode_ok_opcode (cw : CmdWord) (i : Instr) (h : decode cw = .ok i) :
    i.opcode = opField cw := by
  simp only [decode] at h
  split_ifs at h with h1 h2 h3 h4 h5 h6 <;> cases h <;> exact Eq.symm ‹_›

/-- A word with a defined opcode decodes (R52). -/
theorem decode_of_defined (cw : CmdWord) (h : opField cw ∈ definedOpcodes) :
    ∃ i, decode cw = .ok i := by
  simp only [definedOpcodes, List.mem_cons, List.not_mem_nil, or_false] at h
  simp only [decode]
  split_ifs <;> first | exact ⟨_, rfl⟩ | simp_all

/-- A word with a reserved opcode does not (R56). -/
theorem decode_of_reserved (cw : CmdWord) (h : opField cw ∉ definedOpcodes) :
    decode cw = .error (.reservedOpcode (opField cw)) := by
  simp only [definedOpcodes, List.mem_cons, List.not_mem_nil, or_false, not_or] at h
  obtain ⟨h1, h2, h3, h4, h5, h6⟩ := h
  simp only [decode, if_neg h1, if_neg h2, if_neg h3, if_neg h4, if_neg h5, if_neg h6]

end Sys2Proof
end

