-- ==== Sys2Proof/Laws/Memory.lean ====
section
/-! SUPPORT. The laws of the configuration-space bytes: read after write, and that every operation
keeps the canonical form. -/

namespace Sys2Proof.Machine

open Sys2Proof.Config

theorem Memory.read_nil (k : Nat) : Memory.read [] k = none := rfl

theorem Memory.read_write_same (m : Memory) (k : Nat) (v : Byte) :
    Memory.read (Memory.write m k v) k = some v := by
  induction m with
  | nil => simp [Memory.write, Memory.read]
  | cons c rest ih =>
    by_cases h1 : k < c.1
    · simp [Memory.write, Memory.read, h1]
    · by_cases h2 : k = c.1
      · simp [Memory.write, Memory.read, h2]
      · simp [Memory.write, Memory.read, h1, h2, Ne.symm h2, ih]

theorem Memory.read_write_other (m : Memory) (k j : Nat) (v : Byte) (h : k ≠ j) :
    Memory.read (Memory.write m k v) j = Memory.read m j := by
  induction m with
  | nil => simp [Memory.write, Memory.read, Memory.unlisted, h]
  | cons c rest ih =>
    by_cases h1 : k < c.1
    · simp [Memory.write, Memory.read, h1, h]
    · by_cases h2 : k = c.1
      · have h3 : c.1 ≠ j := h2 ▸ h
        simp [Memory.write, Memory.read, h2, h3]
      · simp [Memory.write, Memory.read, h1, h2, ih]

/-- Writing never lowers the least key below what it writes. -/
theorem Memory.mem_write (m : Memory) (k : Nat) (v : Byte) (x : Host.Cell)
    (h : x ∈ Memory.write m k v) : x = (k, v) ∨ x ∈ m := by
  induction m with
  | nil => simpa [Memory.write] using h
  | cons c rest ih =>
    simp only [Memory.write] at h
    split at h
    · simpa using h
    · split at h
      · simp only [List.mem_cons] at h ⊢
        exact h.imp_right .inr
      · simp only [List.mem_cons] at h ⊢
        rcases h with h | h
        · exact .inr (.inl h)
        · exact (ih h).imp_right .inr

theorem Memory.write_wf (m : Memory) (k : Nat) (v : Byte) (hk : k < 2 ^ 24) (h : Memory.wf m) :
    Memory.wf (Memory.write m k v) := by
  refine ⟨?_, fun c hc => ?_⟩
  · have hp := h.1
    clear h hk
    induction m with
    | nil => simp [Memory.write]
    | cons c rest ih =>
      obtain ⟨hc, hr⟩ := List.pairwise_cons.mp hp
      simp only [Memory.write]
      split
      next h1 =>
        refine List.pairwise_cons.mpr ⟨fun y hy => ?_, hp⟩
        rcases List.mem_cons.mp hy with rfl | hy
        · exact h1
        · exact Nat.lt_trans h1 (hc y hy)
      next h1 =>
        split
        next h2 => exact List.pairwise_cons.mpr ⟨fun y hy => h2 ▸ hc y hy, hr⟩
        next h2 =>
          refine List.pairwise_cons.mpr ⟨fun y hy => ?_, ih hr⟩
          rcases Memory.mem_write rest k v y hy with rfl | hy
          · exact Nat.lt_of_le_of_ne (Nat.le_of_not_lt h1) (Ne.symm h2)
          · exact hc y hy
  · rcases Memory.mem_write m k v c hc with rfl | hc
    · exact hk
    · exact h.2 c hc

theorem cellKey_lt (addr : BitVec ADDR_W) (off : Byte) : cellKey addr off < 2 ^ 24 :=
  BitVec.isLt _

theorem cellKey_eq (addr : BitVec ADDR_W) (off : Byte) :
    cellKey addr off = addr.toNat * 256 + off.toNat := by
  have h := Nat.two_pow_add_eq_or_of_lt off.isLt addr.toNat
  simp only [cellKey, BitVec.toNat_append, Nat.shiftLeft_eq, Nat.mul_comm addr.toNat] at h ⊢
  exact h.symm

/-- The key of a byte further on in the same function. -/
theorem cellKey_add (addr : BitVec ADDR_W) (off d : Byte) (h : off.toNat + d.toNat < 256) :
    cellKey addr (off + d) = addr.toNat * 256 + off.toNat + d.toNat := by
  rw [cellKey_eq, BitVec.toNat_add, Nat.mod_eq_of_lt h, Nat.add_assoc]

theorem accessCells_lt (size : AccSize) (addr : BitVec ADDR_W) (off : Byte) (v : Word) :
    ∀ c ∈ accessCells size addr off v, c.1 < 2 ^ 24 := by
  intro c hc
  cases size <;> simp only [accessCells, List.mem_cons, List.not_mem_nil, or_false] at hc
  · exact hc ▸ cellKey_lt ..
  · rcases hc with rfl | rfl | rfl | rfl <;> exact cellKey_lt ..

theorem Request.cells_lt (req : Request) : ∀ c ∈ req.cells, c.1 < 2 ^ 24 := by
  cases req with
  | read => simp [Request.cells]
  | write size addr off v => exact accessCells_lt size addr off v

theorem Memory.writeAll_wf (cs m : Memory) (hcs : ∀ c ∈ cs, c.1 < 2 ^ 24) (h : Memory.wf m) :
    Memory.wf (Memory.writeAll m cs) := by
  induction cs generalizing m with
  | nil => exact h
  | cons c cs ih =>
    exact ih _ (fun x hx => hcs x (List.mem_cons_of_mem _ hx))
      (Memory.write_wf m c.1 c.2 (hcs c List.mem_cons_self) h)

/-- The frame of a list of writes. -/
theorem Memory.read_writeAll_other (cs m : Memory) (k : Nat) (hk : ∀ c ∈ cs, c.1 ≠ k) :
    Memory.read (Memory.writeAll m cs) k = Memory.read m k := by
  induction cs generalizing m with
  | nil => rfl
  | cons c cs ih =>
    exact (ih _ fun x hx => hk x (List.mem_cons_of_mem _ hx)).trans
      (Memory.read_write_other m c.1 k c.2 (hk c List.mem_cons_self))

@[simp] theorem Memory.writeAll_nil (m : Memory) : Memory.writeAll m [] = m := rfl

theorem Memory.writeAll_cons (m : Memory) (c : Host.Cell) (cs : Memory) :
    Memory.writeAll m (c :: cs) = Memory.writeAll (Memory.write m c.1 c.2) cs := rfl

end Sys2Proof.Machine
end

