-- ==== Sys2Proof/Laws/State.lean ====
section
/-! SUPPORT. For each update of the state, what each field is after it: one lemma per field, so that
no later proof unfolds an update. -/

namespace Sys2Proof.Machine

open Sys2Proof.Config

/-! ### advanceHost -/

@[simp] theorem State.advanceHost_st (taken : Bool) (s : State) :
    (State.advanceHost taken s).st = s.st := rfl
@[simp] theorem State.advanceHost_ph (taken : Bool) (s : State) :
    (State.advanceHost taken s).ph = s.ph := rfl
@[simp] theorem State.advanceHost_op (taken : Bool) (s : State) :
    (State.advanceHost taken s).op = s.op := rfl
@[simp] theorem State.advanceHost_addr (taken : Bool) (s : State) :
    (State.advanceHost taken s).addr = s.addr := rfl
@[simp] theorem State.advanceHost_reg (taken : Bool) (s : State) :
    (State.advanceHost taken s).reg = s.reg := rfl
@[simp] theorem State.advanceHost_a (taken : Bool) (s : State) :
    (State.advanceHost taken s).a = s.a := rfl
@[simp] theorem State.advanceHost_b (taken : Bool) (s : State) :
    (State.advanceHost taken s).b = s.b := rfl
@[simp] theorem State.advanceHost_c (taken : Bool) (s : State) :
    (State.advanceHost taken s).c = s.c := rfl
@[simp] theorem State.advanceHost_d1 (taken : Bool) (s : State) :
    (State.advanceHost taken s).d1 = s.d1 := rfl
@[simp] theorem State.advanceHost_d2 (taken : Bool) (s : State) :
    (State.advanceHost taken s).d2 = s.d2 := rfl
@[simp] theorem State.advanceHost_rounds (taken : Bool) (s : State) :
    (State.advanceHost taken s).rounds = s.rounds := rfl
@[simp] theorem State.advanceHost_ffc (taken : Bool) (s : State) :
    (State.advanceHost taken s).ffc = s.ffc := rfl
@[simp] theorem State.advanceHost_prevIdle (taken : Bool) (s : State) :
    (State.advanceHost taken s).prevIdle = s.prevIdle := rfl
@[simp] theorem State.advanceHost_resValid (taken : Bool) (s : State) :
    (State.advanceHost taken s).resValid = s.resValid := rfl
@[simp] theorem State.advanceHost_status (taken : Bool) (s : State) :
    (State.advanceHost taken s).status = s.status := rfl
@[simp] theorem State.advanceHost_issued (taken : Bool) (s : State) :
    (State.advanceHost taken s).issued = s.issued := rfl
@[simp] theorem State.advanceHost_cfg (taken : Bool) (s : State) :
    (State.advanceHost taken s).cfg = s.cfg := rfl
@[simp] theorem State.advanceHost_host (taken : Bool) (s : State) :
    (State.advanceHost taken s).host = s.nextHost taken := rfl
@[simp] theorem State.advanceHost_hostNext (taken : Bool) (s : State) :
    (State.advanceHost taken s).hostNext = s.hostNext.tail := rfl
@[simp] theorem State.advanceHost_env (taken : Bool) (s : State) :
    (State.advanceHost taken s).env = s.env := rfl
@[simp] theorem State.advanceHost_draws (taken : Bool) (s : State) :
    (State.advanceHost taken s).draws = s.draws := rfl
@[simp] theorem State.advanceHost_trace (taken : Bool) (s : State) :
    (State.advanceHost taken s).trace = s.trace := rfl
@[simp] theorem State.advanceHost_written (taken : Bool) (s : State) :
    (State.advanceHost taken s).written = s.written := rfl

/-! ### advanceEnv -/

@[simp] theorem State.advanceEnv_st (s : State) : (State.advanceEnv s).st = s.st := rfl
@[simp] theorem State.advanceEnv_ph (s : State) : (State.advanceEnv s).ph = s.ph := rfl
@[simp] theorem State.advanceEnv_op (s : State) : (State.advanceEnv s).op = s.op := rfl
@[simp] theorem State.advanceEnv_addr (s : State) : (State.advanceEnv s).addr = s.addr := rfl
@[simp] theorem State.advanceEnv_reg (s : State) : (State.advanceEnv s).reg = s.reg := rfl
@[simp] theorem State.advanceEnv_a (s : State) : (State.advanceEnv s).a = s.a := rfl
@[simp] theorem State.advanceEnv_b (s : State) : (State.advanceEnv s).b = s.b := rfl
@[simp] theorem State.advanceEnv_c (s : State) : (State.advanceEnv s).c = s.c := rfl
@[simp] theorem State.advanceEnv_d1 (s : State) : (State.advanceEnv s).d1 = s.d1 := rfl
@[simp] theorem State.advanceEnv_d2 (s : State) : (State.advanceEnv s).d2 = s.d2 := rfl
@[simp] theorem State.advanceEnv_rounds (s : State) :
    (State.advanceEnv s).rounds = s.rounds := rfl
@[simp] theorem State.advanceEnv_ffc (s : State) : (State.advanceEnv s).ffc = s.ffc := rfl
@[simp] theorem State.advanceEnv_prevIdle (s : State) :
    (State.advanceEnv s).prevIdle = s.prevIdle := rfl
@[simp] theorem State.advanceEnv_resValid (s : State) :
    (State.advanceEnv s).resValid = s.resValid := rfl
@[simp] theorem State.advanceEnv_status (s : State) :
    (State.advanceEnv s).status = s.status := rfl
@[simp] theorem State.advanceEnv_issued (s : State) :
    (State.advanceEnv s).issued = s.issued := rfl
@[simp] theorem State.advanceEnv_cfg (s : State) : (State.advanceEnv s).cfg = s.cfg := rfl
@[simp] theorem State.advanceEnv_host (s : State) : (State.advanceEnv s).host = s.host := rfl
@[simp] theorem State.advanceEnv_hostNext (s : State) :
    (State.advanceEnv s).hostNext = s.hostNext := rfl
@[simp] theorem State.advanceEnv_env (s : State) : (State.advanceEnv s).env = s.env.tail := rfl
@[simp] theorem State.advanceEnv_draws (s : State) :
    (State.advanceEnv s).draws = s.draws + 1 := rfl
@[simp] theorem State.advanceEnv_trace (s : State) : (State.advanceEnv s).trace = s.trace := rfl
@[simp] theorem State.advanceEnv_written (s : State) :
    (State.advanceEnv s).written = s.written := rfl

/-! ### goto -/

@[simp] theorem State.goto_st (x : St) (s : State) : (State.goto x s).st = x := rfl
@[simp] theorem State.goto_ph (x : St) (s : State) : (State.goto x s).ph = s.ph := rfl
@[simp] theorem State.goto_op (x : St) (s : State) : (State.goto x s).op = s.op := rfl
@[simp] theorem State.goto_addr (x : St) (s : State) : (State.goto x s).addr = s.addr := rfl
@[simp] theorem State.goto_reg (x : St) (s : State) : (State.goto x s).reg = s.reg := rfl
@[simp] theorem State.goto_a (x : St) (s : State) : (State.goto x s).a = s.a := rfl
@[simp] theorem State.goto_b (x : St) (s : State) : (State.goto x s).b = s.b := rfl
@[simp] theorem State.goto_c (x : St) (s : State) : (State.goto x s).c = s.c := rfl
@[simp] theorem State.goto_d1 (x : St) (s : State) : (State.goto x s).d1 = s.d1 := rfl
@[simp] theorem State.goto_d2 (x : St) (s : State) : (State.goto x s).d2 = s.d2 := rfl
@[simp] theorem State.goto_rounds (x : St) (s : State) : (State.goto x s).rounds = s.rounds := rfl
@[simp] theorem State.goto_ffc (x : St) (s : State) : (State.goto x s).ffc = s.ffc := rfl
@[simp] theorem State.goto_prevIdle (x : St) (s : State) :
    (State.goto x s).prevIdle = s.prevIdle := rfl
@[simp] theorem State.goto_resValid (x : St) (s : State) :
    (State.goto x s).resValid = s.resValid := rfl
@[simp] theorem State.goto_status (x : St) (s : State) : (State.goto x s).status = s.status := rfl
@[simp] theorem State.goto_issued (x : St) (s : State) : (State.goto x s).issued = s.issued := rfl
@[simp] theorem State.goto_cfg (x : St) (s : State) : (State.goto x s).cfg = s.cfg := rfl
@[simp] theorem State.goto_host (x : St) (s : State) : (State.goto x s).host = s.host := rfl
@[simp] theorem State.goto_hostNext (x : St) (s : State) :
    (State.goto x s).hostNext = s.hostNext := rfl
@[simp] theorem State.goto_env (x : St) (s : State) : (State.goto x s).env = s.env := rfl
@[simp] theorem State.goto_draws (x : St) (s : State) : (State.goto x s).draws = s.draws := rfl
@[simp] theorem State.goto_trace (x : St) (s : State) : (State.goto x s).trace = s.trace := rfl
@[simp] theorem State.goto_written (x : St) (s : State) :
    (State.goto x s).written = s.written := rfl

/-! ### enterPoll -/

@[simp] theorem State.enterPoll_st (s : State) : (State.enterPoll s).st = .poll := rfl
@[simp] theorem State.enterPoll_ph (s : State) : (State.enterPoll s).ph = s.ph := rfl
@[simp] theorem State.enterPoll_op (s : State) : (State.enterPoll s).op = s.op := rfl
@[simp] theorem State.enterPoll_addr (s : State) : (State.enterPoll s).addr = s.addr := rfl
@[simp] theorem State.enterPoll_reg (s : State) : (State.enterPoll s).reg = s.reg := rfl
@[simp] theorem State.enterPoll_a (s : State) : (State.enterPoll s).a = s.a := rfl
@[simp] theorem State.enterPoll_b (s : State) : (State.enterPoll s).b = s.b := rfl
@[simp] theorem State.enterPoll_c (s : State) : (State.enterPoll s).c = s.c := rfl
@[simp] theorem State.enterPoll_d1 (s : State) : (State.enterPoll s).d1 = s.d1 := rfl
@[simp] theorem State.enterPoll_d2 (s : State) : (State.enterPoll s).d2 = s.d2 := rfl
@[simp] theorem State.enterPoll_rounds (s : State) : (State.enterPoll s).rounds = 0 := rfl
@[simp] theorem State.enterPoll_ffc (s : State) : (State.enterPoll s).ffc = 0 := rfl
@[simp] theorem State.enterPoll_prevIdle (s : State) : (State.enterPoll s).prevIdle = false := rfl
@[simp] theorem State.enterPoll_resValid (s : State) :
    (State.enterPoll s).resValid = s.resValid := rfl
@[simp] theorem State.enterPoll_status (s : State) : (State.enterPoll s).status = s.status := rfl
@[simp] theorem State.enterPoll_issued (s : State) : (State.enterPoll s).issued = s.issued := rfl
@[simp] theorem State.enterPoll_cfg (s : State) : (State.enterPoll s).cfg = s.cfg := rfl
@[simp] theorem State.enterPoll_host (s : State) : (State.enterPoll s).host = s.host := rfl
@[simp] theorem State.enterPoll_hostNext (s : State) :
    (State.enterPoll s).hostNext = s.hostNext := rfl
@[simp] theorem State.enterPoll_env (s : State) : (State.enterPoll s).env = s.env := rfl
@[simp] theorem State.enterPoll_draws (s : State) : (State.enterPoll s).draws = s.draws := rfl
@[simp] theorem State.enterPoll_trace (s : State) : (State.enterPoll s).trace = s.trace := rfl
@[simp] theorem State.enterPoll_written (s : State) :
    (State.enterPoll s).written = s.written := rfl

/-! ### accept -/

@[simp] theorem State.accept_st (op : Byte) (addr : BitVec ADDR_W) (reg : BitVec REG_W) (a b c : Word) (s : State) :
    (State.accept op addr reg a b c s).st = s.st := rfl
@[simp] theorem State.accept_ph (op : Byte) (addr : BitVec ADDR_W) (reg : BitVec REG_W) (a b c : Word) (s : State) :
    (State.accept op addr reg a b c s).ph = .one := rfl
@[simp] theorem State.accept_op (op : Byte) (addr : BitVec ADDR_W) (reg : BitVec REG_W) (a b c : Word) (s : State) :
    (State.accept op addr reg a b c s).op = op := rfl
@[simp] theorem State.accept_addr (op : Byte) (addr : BitVec ADDR_W) (reg : BitVec REG_W) (a b c : Word) (s : State) :
    (State.accept op addr reg a b c s).addr = addr := rfl
@[simp] theorem State.accept_reg (op : Byte) (addr : BitVec ADDR_W) (reg : BitVec REG_W) (a b c : Word) (s : State) :
    (State.accept op addr reg a b c s).reg = reg := rfl
@[simp] theorem State.accept_a (op : Byte) (addr : BitVec ADDR_W) (reg : BitVec REG_W) (a b c : Word) (s : State) :
    (State.accept op addr reg a b c s).a = a := rfl
@[simp] theorem State.accept_b (op : Byte) (addr : BitVec ADDR_W) (reg : BitVec REG_W) (a b c : Word) (s : State) :
    (State.accept op addr reg a b c s).b = b := rfl
@[simp] theorem State.accept_c (op : Byte) (addr : BitVec ADDR_W) (reg : BitVec REG_W) (a b c : Word) (s : State) :
    (State.accept op addr reg a b c s).c = c := rfl
@[simp] theorem State.accept_d1 (op : Byte) (addr : BitVec ADDR_W) (reg : BitVec REG_W) (a b c : Word) (s : State) :
    (State.accept op addr reg a b c s).d1 = s.d1 := rfl
@[simp] theorem State.accept_d2 (op : Byte) (addr : BitVec ADDR_W) (reg : BitVec REG_W) (a b c : Word) (s : State) :
    (State.accept op addr reg a b c s).d2 = s.d2 := rfl
@[simp] theorem State.accept_rounds (op : Byte) (addr : BitVec ADDR_W) (reg : BitVec REG_W) (a b c : Word) (s : State) :
    (State.accept op addr reg a b c s).rounds = s.rounds := rfl
@[simp] theorem State.accept_ffc (op : Byte) (addr : BitVec ADDR_W) (reg : BitVec REG_W) (a b c : Word) (s : State) :
    (State.accept op addr reg a b c s).ffc = s.ffc := rfl
@[simp] theorem State.accept_prevIdle (op : Byte) (addr : BitVec ADDR_W) (reg : BitVec REG_W) (a b c : Word) (s : State) :
    (State.accept op addr reg a b c s).prevIdle = s.prevIdle := rfl
@[simp] theorem State.accept_resValid (op : Byte) (addr : BitVec ADDR_W) (reg : BitVec REG_W) (a b c : Word) (s : State) :
    (State.accept op addr reg a b c s).resValid = false := rfl
@[simp] theorem State.accept_status (op : Byte) (addr : BitVec ADDR_W) (reg : BitVec REG_W) (a b c : Word) (s : State) :
    (State.accept op addr reg a b c s).status = s.status := rfl
@[simp] theorem State.accept_issued (op : Byte) (addr : BitVec ADDR_W) (reg : BitVec REG_W) (a b c : Word) (s : State) :
    (State.accept op addr reg a b c s).issued = 0 := rfl
@[simp] theorem State.accept_cfg (op : Byte) (addr : BitVec ADDR_W) (reg : BitVec REG_W) (a b c : Word) (s : State) :
    (State.accept op addr reg a b c s).cfg = s.cfg := rfl
@[simp] theorem State.accept_host (op : Byte) (addr : BitVec ADDR_W) (reg : BitVec REG_W) (a b c : Word) (s : State) :
    (State.accept op addr reg a b c s).host = s.nextHost true := rfl
@[simp] theorem State.accept_hostNext (op : Byte) (addr : BitVec ADDR_W) (reg : BitVec REG_W) (a b c : Word) (s : State) :
    (State.accept op addr reg a b c s).hostNext = s.hostNext.tail := rfl
@[simp] theorem State.accept_env (op : Byte) (addr : BitVec ADDR_W) (reg : BitVec REG_W) (a b c : Word) (s : State) :
    (State.accept op addr reg a b c s).env = s.env := rfl
@[simp] theorem State.accept_draws (op : Byte) (addr : BitVec ADDR_W) (reg : BitVec REG_W) (a b c : Word) (s : State) :
    (State.accept op addr reg a b c s).draws = s.draws := rfl
@[simp] theorem State.accept_trace (op : Byte) (addr : BitVec ADDR_W) (reg : BitVec REG_W) (a b c : Word) (s : State) :
    (State.accept op addr reg a b c s).trace = s.trace := rfl
@[simp] theorem State.accept_written (op : Byte) (addr : BitVec ADDR_W) (reg : BitVec REG_W) (a b c : Word) (s : State) :
    (State.accept op addr reg a b c s).written = s.written := rfl

/-! ### finish -/

@[simp] theorem State.finish_st (x : Status) (s : State) : (State.finish x s).st = .idle := rfl
@[simp] theorem State.finish_ph (x : Status) (s : State) : (State.finish x s).ph = s.ph := rfl
@[simp] theorem State.finish_op (x : Status) (s : State) : (State.finish x s).op = s.op := rfl
@[simp] theorem State.finish_addr (x : Status) (s : State) :
    (State.finish x s).addr = s.addr := rfl
@[simp] theorem State.finish_reg (x : Status) (s : State) : (State.finish x s).reg = s.reg := rfl
@[simp] theorem State.finish_a (x : Status) (s : State) : (State.finish x s).a = s.a := rfl
@[simp] theorem State.finish_b (x : Status) (s : State) : (State.finish x s).b = s.b := rfl
@[simp] theorem State.finish_c (x : Status) (s : State) : (State.finish x s).c = s.c := rfl
@[simp] theorem State.finish_d1 (x : Status) (s : State) : (State.finish x s).d1 = s.d1 := rfl
@[simp] theorem State.finish_d2 (x : Status) (s : State) : (State.finish x s).d2 = s.d2 := rfl
@[simp] theorem State.finish_rounds (x : Status) (s : State) :
    (State.finish x s).rounds = s.rounds := rfl
@[simp] theorem State.finish_ffc (x : Status) (s : State) : (State.finish x s).ffc = s.ffc := rfl
@[simp] theorem State.finish_prevIdle (x : Status) (s : State) :
    (State.finish x s).prevIdle = s.prevIdle := rfl
@[simp] theorem State.finish_resValid (x : Status) (s : State) :
    (State.finish x s).resValid = true := rfl
@[simp] theorem State.finish_status (x : Status) (s : State) :
    (State.finish x s).status = x := rfl
@[simp] theorem State.finish_issued (x : Status) (s : State) :
    (State.finish x s).issued = s.issued := rfl
@[simp] theorem State.finish_cfg (x : Status) (s : State) : (State.finish x s).cfg = s.cfg := rfl
@[simp] theorem State.finish_host (x : Status) (s : State) :
    (State.finish x s).host = s.host := rfl
@[simp] theorem State.finish_hostNext (x : Status) (s : State) :
    (State.finish x s).hostNext = s.hostNext := rfl
@[simp] theorem State.finish_env (x : Status) (s : State) : (State.finish x s).env = s.env := rfl
@[simp] theorem State.finish_draws (x : Status) (s : State) :
    (State.finish x s).draws = s.draws := rfl
@[simp] theorem State.finish_trace (x : Status) (s : State) :
    (State.finish x s).trace = s.trace := rfl
@[simp] theorem State.finish_written (x : Status) (s : State) :
    (State.finish x s).written = s.written := rfl

/-! ### raise -/

@[simp] theorem State.raise_st (e : Cause) (s : State) : (State.raise e s).st = .idle := rfl
@[simp] theorem State.raise_ph (e : Cause) (s : State) : (State.raise e s).ph = s.ph := rfl
@[simp] theorem State.raise_op (e : Cause) (s : State) : (State.raise e s).op = s.op := rfl
@[simp] theorem State.raise_addr (e : Cause) (s : State) : (State.raise e s).addr = s.addr := rfl
@[simp] theorem State.raise_reg (e : Cause) (s : State) : (State.raise e s).reg = s.reg := rfl
@[simp] theorem State.raise_a (e : Cause) (s : State) : (State.raise e s).a = s.a := rfl
@[simp] theorem State.raise_b (e : Cause) (s : State) : (State.raise e s).b = s.b := rfl
@[simp] theorem State.raise_c (e : Cause) (s : State) : (State.raise e s).c = s.c := rfl
@[simp] theorem State.raise_d1 (e : Cause) (s : State) : (State.raise e s).d1 = s.d1 := rfl
@[simp] theorem State.raise_d2 (e : Cause) (s : State) : (State.raise e s).d2 = s.d2 := rfl
@[simp] theorem State.raise_rounds (e : Cause) (s : State) :
    (State.raise e s).rounds = s.rounds := rfl
@[simp] theorem State.raise_ffc (e : Cause) (s : State) : (State.raise e s).ffc = s.ffc := rfl
@[simp] theorem State.raise_prevIdle (e : Cause) (s : State) :
    (State.raise e s).prevIdle = s.prevIdle := rfl
@[simp] theorem State.raise_resValid (e : Cause) (s : State) :
    (State.raise e s).resValid = true := rfl
@[simp] theorem State.raise_status (e : Cause) (s : State) :
    (State.raise e s).status = e.status := rfl
@[simp] theorem State.raise_issued (e : Cause) (s : State) :
    (State.raise e s).issued = s.issued := rfl
@[simp] theorem State.raise_cfg (e : Cause) (s : State) : (State.raise e s).cfg = s.cfg := rfl
@[simp] theorem State.raise_host (e : Cause) (s : State) : (State.raise e s).host = s.host := rfl
@[simp] theorem State.raise_hostNext (e : Cause) (s : State) :
    (State.raise e s).hostNext = s.hostNext := rfl
@[simp] theorem State.raise_env (e : Cause) (s : State) : (State.raise e s).env = s.env := rfl
@[simp] theorem State.raise_draws (e : Cause) (s : State) :
    (State.raise e s).draws = s.draws := rfl
@[simp] theorem State.raise_trace (e : Cause) (s : State) :
    (State.raise e s).trace = s.trace := rfl
@[simp] theorem State.raise_written (e : Cause) (s : State) :
    (State.raise e s).written = s.written := rfl

/-! ### complete -/

@[simp] theorem State.complete_st (s : State) : (State.complete s).st = .idle := rfl
@[simp] theorem State.complete_ph (s : State) : (State.complete s).ph = s.ph := rfl
@[simp] theorem State.complete_op (s : State) : (State.complete s).op = s.op := rfl
@[simp] theorem State.complete_addr (s : State) : (State.complete s).addr = s.addr := rfl
@[simp] theorem State.complete_reg (s : State) : (State.complete s).reg = s.reg := rfl
@[simp] theorem State.complete_a (s : State) : (State.complete s).a = s.a := rfl
@[simp] theorem State.complete_b (s : State) : (State.complete s).b = s.b := rfl
@[simp] theorem State.complete_c (s : State) : (State.complete s).c = s.c := rfl
@[simp] theorem State.complete_d1 (s : State) : (State.complete s).d1 = s.d1 := rfl
@[simp] theorem State.complete_d2 (s : State) : (State.complete s).d2 = s.d2 := rfl
@[simp] theorem State.complete_rounds (s : State) : (State.complete s).rounds = s.rounds := rfl
@[simp] theorem State.complete_ffc (s : State) : (State.complete s).ffc = s.ffc := rfl
@[simp] theorem State.complete_prevIdle (s : State) :
    (State.complete s).prevIdle = s.prevIdle := rfl
@[simp] theorem State.complete_resValid (s : State) : (State.complete s).resValid = true := rfl
@[simp] theorem State.complete_status (s : State) : (State.complete s).status = .ok := rfl
@[simp] theorem State.complete_issued (s : State) : (State.complete s).issued = s.issued := rfl
@[simp] theorem State.complete_cfg (s : State) : (State.complete s).cfg = s.cfg := rfl
@[simp] theorem State.complete_host (s : State) : (State.complete s).host = s.host := rfl
@[simp] theorem State.complete_hostNext (s : State) :
    (State.complete s).hostNext = s.hostNext := rfl
@[simp] theorem State.complete_env (s : State) : (State.complete s).env = s.env := rfl
@[simp] theorem State.complete_draws (s : State) : (State.complete s).draws = s.draws := rfl
@[simp] theorem State.complete_trace (s : State) : (State.complete s).trace = s.trace := rfl
@[simp] theorem State.complete_written (s : State) : (State.complete s).written = s.written := rfl

/-! ### record -/

@[simp] theorem State.record_st (req : Request) (reply : Reply) (lands : Bool) (s : State) :
    (State.record req reply lands s).st = s.st := rfl
@[simp] theorem State.record_ph (req : Request) (reply : Reply) (lands : Bool) (s : State) :
    (State.record req reply lands s).ph = s.ph := rfl
@[simp] theorem State.record_op (req : Request) (reply : Reply) (lands : Bool) (s : State) :
    (State.record req reply lands s).op = s.op := rfl
@[simp] theorem State.record_addr (req : Request) (reply : Reply) (lands : Bool) (s : State) :
    (State.record req reply lands s).addr = s.addr := rfl
@[simp] theorem State.record_reg (req : Request) (reply : Reply) (lands : Bool) (s : State) :
    (State.record req reply lands s).reg = s.reg := rfl
@[simp] theorem State.record_a (req : Request) (reply : Reply) (lands : Bool) (s : State) :
    (State.record req reply lands s).a = s.a := rfl
@[simp] theorem State.record_b (req : Request) (reply : Reply) (lands : Bool) (s : State) :
    (State.record req reply lands s).b = s.b := rfl
@[simp] theorem State.record_c (req : Request) (reply : Reply) (lands : Bool) (s : State) :
    (State.record req reply lands s).c = s.c := rfl
@[simp] theorem State.record_d1 (req : Request) (reply : Reply) (lands : Bool) (s : State) :
    (State.record req reply lands s).d1 = s.d1 := rfl
@[simp] theorem State.record_d2 (req : Request) (reply : Reply) (lands : Bool) (s : State) :
    (State.record req reply lands s).d2 = s.d2 := rfl
@[simp] theorem State.record_rounds (req : Request) (reply : Reply) (lands : Bool) (s : State) :
    (State.record req reply lands s).rounds = s.rounds := rfl
@[simp] theorem State.record_ffc (req : Request) (reply : Reply) (lands : Bool) (s : State) :
    (State.record req reply lands s).ffc = s.ffc := rfl
@[simp] theorem State.record_prevIdle (req : Request) (reply : Reply) (lands : Bool) (s : State) :
    (State.record req reply lands s).prevIdle = s.prevIdle := rfl
@[simp] theorem State.record_resValid (req : Request) (reply : Reply) (lands : Bool) (s : State) :
    (State.record req reply lands s).resValid = s.resValid := rfl
@[simp] theorem State.record_status (req : Request) (reply : Reply) (lands : Bool) (s : State) :
    (State.record req reply lands s).status = s.status := rfl
@[simp] theorem State.record_issued (req : Request) (reply : Reply) (lands : Bool) (s : State) :
    (State.record req reply lands s).issued = s.issued := rfl
@[simp] theorem State.record_cfg (req : Request) (reply : Reply) (lands : Bool) (s : State) :
    (State.record req reply lands s).cfg = s.cfg := rfl
@[simp] theorem State.record_host (req : Request) (reply : Reply) (lands : Bool) (s : State) :
    (State.record req reply lands s).host = s.host := rfl
@[simp] theorem State.record_hostNext (req : Request) (reply : Reply) (lands : Bool) (s : State) :
    (State.record req reply lands s).hostNext = s.hostNext := rfl
@[simp] theorem State.record_env (req : Request) (reply : Reply) (lands : Bool) (s : State) :
    (State.record req reply lands s).env = s.env := rfl
@[simp] theorem State.record_draws (req : Request) (reply : Reply) (lands : Bool) (s : State) :
    (State.record req reply lands s).draws = s.draws := rfl
@[simp] theorem State.record_trace (req : Request) (reply : Reply) (lands : Bool) (s : State) :
    (State.record req reply lands s).trace = s.trace ++ [⟨req, reply⟩] := rfl
@[simp] theorem State.record_written (req : Request) (reply : Reply) (lands : Bool) (s : State) :
    (State.record req reply lands s).written = if lands then Memory.writeAll s.written req.cells else s.written := rfl

/-! ### countRound -/

@[simp] theorem State.countRound_st (s : State) : (State.countRound s).st = s.st := rfl
@[simp] theorem State.countRound_ph (s : State) : (State.countRound s).ph = s.ph := rfl
@[simp] theorem State.countRound_op (s : State) : (State.countRound s).op = s.op := rfl
@[simp] theorem State.countRound_addr (s : State) : (State.countRound s).addr = s.addr := rfl
@[simp] theorem State.countRound_reg (s : State) : (State.countRound s).reg = s.reg := rfl
@[simp] theorem State.countRound_a (s : State) : (State.countRound s).a = s.a := rfl
@[simp] theorem State.countRound_b (s : State) : (State.countRound s).b = s.b := rfl
@[simp] theorem State.countRound_c (s : State) : (State.countRound s).c = s.c := rfl
@[simp] theorem State.countRound_d1 (s : State) : (State.countRound s).d1 = s.d1 := rfl
@[simp] theorem State.countRound_d2 (s : State) : (State.countRound s).d2 = s.d2 := rfl
@[simp] theorem State.countRound_rounds (s : State) :
    (State.countRound s).rounds =
      if opensRound s.cfg s.prevIdle then counterNext s.cfg.roundsW s.rounds else s.rounds := rfl
@[simp] theorem State.countRound_ffc (s : State) : (State.countRound s).ffc = s.ffc := rfl
@[simp] theorem State.countRound_prevIdle (s : State) :
    (State.countRound s).prevIdle = s.prevIdle := rfl
@[simp] theorem State.countRound_resValid (s : State) :
    (State.countRound s).resValid = s.resValid := rfl
@[simp] theorem State.countRound_status (s : State) :
    (State.countRound s).status = s.status := rfl
@[simp] theorem State.countRound_issued (s : State) :
    (State.countRound s).issued = s.issued := rfl
@[simp] theorem State.countRound_cfg (s : State) : (State.countRound s).cfg = s.cfg := rfl
@[simp] theorem State.countRound_host (s : State) : (State.countRound s).host = s.host := rfl
@[simp] theorem State.countRound_hostNext (s : State) :
    (State.countRound s).hostNext = s.hostNext := rfl
@[simp] theorem State.countRound_env (s : State) : (State.countRound s).env = s.env := rfl
@[simp] theorem State.countRound_draws (s : State) : (State.countRound s).draws = s.draws := rfl
@[simp] theorem State.countRound_trace (s : State) : (State.countRound s).trace = s.trace := rfl
@[simp] theorem State.countRound_written (s : State) :
    (State.countRound s).written = s.written := rfl

/-! ### countAbsent -/

@[simp] theorem State.countAbsent_st (v : Byte) (s : State) :
    (State.countAbsent v s).st = s.st := rfl
@[simp] theorem State.countAbsent_ph (v : Byte) (s : State) :
    (State.countAbsent v s).ph = s.ph := rfl
@[simp] theorem State.countAbsent_op (v : Byte) (s : State) :
    (State.countAbsent v s).op = s.op := rfl
@[simp] theorem State.countAbsent_addr (v : Byte) (s : State) :
    (State.countAbsent v s).addr = s.addr := rfl
@[simp] theorem State.countAbsent_reg (v : Byte) (s : State) :
    (State.countAbsent v s).reg = s.reg := rfl
@[simp] theorem State.countAbsent_a (v : Byte) (s : State) :
    (State.countAbsent v s).a = s.a := rfl
@[simp] theorem State.countAbsent_b (v : Byte) (s : State) :
    (State.countAbsent v s).b = s.b := rfl
@[simp] theorem State.countAbsent_c (v : Byte) (s : State) :
    (State.countAbsent v s).c = s.c := rfl
@[simp] theorem State.countAbsent_d1 (v : Byte) (s : State) :
    (State.countAbsent v s).d1 = s.d1 := rfl
@[simp] theorem State.countAbsent_d2 (v : Byte) (s : State) :
    (State.countAbsent v s).d2 = s.d2 := rfl
@[simp] theorem State.countAbsent_rounds (v : Byte) (s : State) :
    (State.countAbsent v s).rounds = s.rounds := rfl
@[simp] theorem State.countAbsent_ffc (v : Byte) (s : State) :
    (State.countAbsent v s).ffc =
      if isAbsentSample s.cfg v then counterNext s.cfg.ffcW s.ffc else s.ffc := rfl
@[simp] theorem State.countAbsent_prevIdle (v : Byte) (s : State) :
    (State.countAbsent v s).prevIdle = s.prevIdle := rfl
@[simp] theorem State.countAbsent_resValid (v : Byte) (s : State) :
    (State.countAbsent v s).resValid = s.resValid := rfl
@[simp] theorem State.countAbsent_status (v : Byte) (s : State) :
    (State.countAbsent v s).status = s.status := rfl
@[simp] theorem State.countAbsent_issued (v : Byte) (s : State) :
    (State.countAbsent v s).issued = s.issued := rfl
@[simp] theorem State.countAbsent_cfg (v : Byte) (s : State) :
    (State.countAbsent v s).cfg = s.cfg := rfl
@[simp] theorem State.countAbsent_host (v : Byte) (s : State) :
    (State.countAbsent v s).host = s.host := rfl
@[simp] theorem State.countAbsent_hostNext (v : Byte) (s : State) :
    (State.countAbsent v s).hostNext = s.hostNext := rfl
@[simp] theorem State.countAbsent_env (v : Byte) (s : State) :
    (State.countAbsent v s).env = s.env := rfl
@[simp] theorem State.countAbsent_draws (v : Byte) (s : State) :
    (State.countAbsent v s).draws = s.draws := rfl
@[simp] theorem State.countAbsent_trace (v : Byte) (s : State) :
    (State.countAbsent v s).trace = s.trace := rfl
@[simp] theorem State.countAbsent_written (v : Byte) (s : State) :
    (State.countAbsent v s).written = s.written := rfl

/-! ### countIssue -/

@[simp] theorem State.countIssue_st (s : State) : (State.countIssue s).st = s.st := rfl
@[simp] theorem State.countIssue_ph (s : State) : (State.countIssue s).ph = s.ph := rfl
@[simp] theorem State.countIssue_op (s : State) : (State.countIssue s).op = s.op := rfl
@[simp] theorem State.countIssue_addr (s : State) : (State.countIssue s).addr = s.addr := rfl
@[simp] theorem State.countIssue_reg (s : State) : (State.countIssue s).reg = s.reg := rfl
@[simp] theorem State.countIssue_a (s : State) : (State.countIssue s).a = s.a := rfl
@[simp] theorem State.countIssue_b (s : State) : (State.countIssue s).b = s.b := rfl
@[simp] theorem State.countIssue_c (s : State) : (State.countIssue s).c = s.c := rfl
@[simp] theorem State.countIssue_d1 (s : State) : (State.countIssue s).d1 = s.d1 := rfl
@[simp] theorem State.countIssue_d2 (s : State) : (State.countIssue s).d2 = s.d2 := rfl
@[simp] theorem State.countIssue_rounds (s : State) :
    (State.countIssue s).rounds = s.rounds := rfl
@[simp] theorem State.countIssue_ffc (s : State) : (State.countIssue s).ffc = s.ffc := rfl
@[simp] theorem State.countIssue_prevIdle (s : State) :
    (State.countIssue s).prevIdle = s.prevIdle := rfl
@[simp] theorem State.countIssue_resValid (s : State) :
    (State.countIssue s).resValid = s.resValid := rfl
@[simp] theorem State.countIssue_status (s : State) :
    (State.countIssue s).status = s.status := rfl
@[simp] theorem State.countIssue_issued (s : State) :
    (State.countIssue s).issued = s.issued + 1 := rfl
@[simp] theorem State.countIssue_cfg (s : State) : (State.countIssue s).cfg = s.cfg := rfl
@[simp] theorem State.countIssue_host (s : State) : (State.countIssue s).host = s.host := rfl
@[simp] theorem State.countIssue_hostNext (s : State) :
    (State.countIssue s).hostNext = s.hostNext := rfl
@[simp] theorem State.countIssue_env (s : State) : (State.countIssue s).env = s.env := rfl
@[simp] theorem State.countIssue_draws (s : State) : (State.countIssue s).draws = s.draws := rfl
@[simp] theorem State.countIssue_trace (s : State) : (State.countIssue s).trace = s.trace := rfl
@[simp] theorem State.countIssue_written (s : State) :
    (State.countIssue s).written = s.written := rfl

/-! ### resetEvent -/

@[simp] theorem State.resetEvent_st (s : State) : (State.resetEvent s).st = .idle := rfl
@[simp] theorem State.resetEvent_ph (s : State) : (State.resetEvent s).ph = .one := rfl
@[simp] theorem State.resetEvent_op (s : State) : (State.resetEvent s).op = 0 := rfl
@[simp] theorem State.resetEvent_addr (s : State) : (State.resetEvent s).addr = 0 := rfl
@[simp] theorem State.resetEvent_reg (s : State) : (State.resetEvent s).reg = 0 := rfl
@[simp] theorem State.resetEvent_a (s : State) : (State.resetEvent s).a = 0 := rfl
@[simp] theorem State.resetEvent_b (s : State) : (State.resetEvent s).b = 0 := rfl
@[simp] theorem State.resetEvent_c (s : State) : (State.resetEvent s).c = 0 := rfl
@[simp] theorem State.resetEvent_d1 (s : State) : (State.resetEvent s).d1 = 0 := rfl
@[simp] theorem State.resetEvent_d2 (s : State) : (State.resetEvent s).d2 = 0 := rfl
@[simp] theorem State.resetEvent_rounds (s : State) : (State.resetEvent s).rounds = 0 := rfl
@[simp] theorem State.resetEvent_ffc (s : State) : (State.resetEvent s).ffc = 0 := rfl
@[simp] theorem State.resetEvent_prevIdle (s : State) :
    (State.resetEvent s).prevIdle = false := rfl
@[simp] theorem State.resetEvent_resValid (s : State) :
    (State.resetEvent s).resValid = false := rfl
@[simp] theorem State.resetEvent_status (s : State) : (State.resetEvent s).status = .ok := rfl
@[simp] theorem State.resetEvent_issued (s : State) : (State.resetEvent s).issued = 0 := rfl
@[simp] theorem State.resetEvent_cfg (s : State) : (State.resetEvent s).cfg = s.cfg := rfl
@[simp] theorem State.resetEvent_host (s : State) :
    (State.resetEvent s).host = s.nextHost false := rfl
@[simp] theorem State.resetEvent_hostNext (s : State) :
    (State.resetEvent s).hostNext = s.hostNext.tail := rfl
@[simp] theorem State.resetEvent_env (s : State) :
    (State.resetEvent s).env = if s.st = .idle then s.env else s.env.tail := rfl
@[simp] theorem State.resetEvent_draws (s : State) :
    (State.resetEvent s).draws = if s.st = .idle then s.draws else s.draws + 1 := rfl
@[simp] theorem State.resetEvent_trace (s : State) : (State.resetEvent s).trace = s.trace := rfl
@[simp] theorem State.resetEvent_written (s : State) :
    (State.resetEvent s).written = s.abandonedBytes := rfl

/-! ### waitForCommand -/

@[simp] theorem State.waitForCommand_st (s : State) : (State.waitForCommand s).st = s.st := rfl
@[simp] theorem State.waitForCommand_ph (s : State) : (State.waitForCommand s).ph = s.ph := rfl
@[simp] theorem State.waitForCommand_op (s : State) : (State.waitForCommand s).op = s.op := rfl
@[simp] theorem State.waitForCommand_addr (s : State) :
    (State.waitForCommand s).addr = s.addr := rfl
@[simp] theorem State.waitForCommand_reg (s : State) : (State.waitForCommand s).reg = s.reg := rfl
@[simp] theorem State.waitForCommand_a (s : State) : (State.waitForCommand s).a = s.a := rfl
@[simp] theorem State.waitForCommand_b (s : State) : (State.waitForCommand s).b = s.b := rfl
@[simp] theorem State.waitForCommand_c (s : State) : (State.waitForCommand s).c = s.c := rfl
@[simp] theorem State.waitForCommand_d1 (s : State) : (State.waitForCommand s).d1 = s.d1 := rfl
@[simp] theorem State.waitForCommand_d2 (s : State) : (State.waitForCommand s).d2 = s.d2 := rfl
@[simp] theorem State.waitForCommand_rounds (s : State) :
    (State.waitForCommand s).rounds = s.rounds := rfl
@[simp] theorem State.waitForCommand_ffc (s : State) : (State.waitForCommand s).ffc = s.ffc := rfl
@[simp] theorem State.waitForCommand_prevIdle (s : State) :
    (State.waitForCommand s).prevIdle = s.prevIdle := rfl
@[simp] theorem State.waitForCommand_resValid (s : State) :
    (State.waitForCommand s).resValid = s.resValid := rfl
@[simp] theorem State.waitForCommand_status (s : State) :
    (State.waitForCommand s).status = s.status := rfl
@[simp] theorem State.waitForCommand_issued (s : State) :
    (State.waitForCommand s).issued = s.issued := rfl
@[simp] theorem State.waitForCommand_cfg (s : State) : (State.waitForCommand s).cfg = s.cfg := rfl
@[simp] theorem State.waitForCommand_host (s : State) :
    (State.waitForCommand s).host = s.nextHost false := rfl
@[simp] theorem State.waitForCommand_hostNext (s : State) :
    (State.waitForCommand s).hostNext = s.hostNext.tail := rfl
@[simp] theorem State.waitForCommand_env (s : State) : (State.waitForCommand s).env = s.env := rfl
@[simp] theorem State.waitForCommand_draws (s : State) :
    (State.waitForCommand s).draws = s.draws := rfl
@[simp] theorem State.waitForCommand_trace (s : State) :
    (State.waitForCommand s).trace = s.trace := rfl
@[simp] theorem State.waitForCommand_written (s : State) :
    (State.waitForCommand s).written = s.written := rfl

end Sys2Proof.Machine
end

