-- ==== Sys2Proof/Laws/Ops.lean ====
section
/-! SUPPORT. For each shared operation, once, everything it can do. -/

namespace Sys2Proof.Machine

open Sys2Proof.Config

/-! ### The ports -/

theorem State.nextHost_silent (taken : Bool) (s : State) (h : s.hostNext = []) :
    s.nextHost taken = { s.host with rst := false, cmdValid := s.host.cmdValid && !taken } := by
  simp [State.nextHost, h]

theorem State.accPort_cons (s : State) (p : AccPort) (rest : List AccPort) (h : s.env = p :: rest) :
    s.accPort = p := by
  simp [State.accPort, h]

/-! ### The enabled transaction -/

theorem State.request_idle (s : State) (h : s.st = .idle) : s.request = none := by
  simp [State.request, h]

theorem State.request_some_iff (s : State) :
    (∃ req, s.request = some req) ↔ s.st ≠ .idle ∧ pcLegal s.op s.st s.ph = true := by
  unfold State.request
  by_cases hl : pcLegal s.op s.st s.ph = true
  · cases hs : s.st <;> simp_all
  · simp [hl]

/-- R14's table, for a sequencer state that R15 lists. -/
theorem State.request_legal (s : State) (h : pcLegal s.op s.st s.ph = true) :
    s.request =
      match s.st with
      | .idle => none
      | .poll => some (.read .byte s.addr s.cfg.ctrlOff)
      | .sel => some (.write .word s.addr s.cfg.selOff s.selector)
      | .dat => some (.write .word s.addr s.cfg.dinOff s.dataWord)
      | .ctl => some (.write .byte s.addr s.cfg.ctrlOff ((triggerFlag s.cfg s.op).setWidth 32))
      | .rd1 => some (.read .word s.addr s.cfg.dout1Off)
      | .rd2 => some (.read .word s.addr s.cfg.dout2Off)
      | .ack => some (.write .byte s.addr s.cfg.ctrlOff (s.cfg.readBitFlag.setWidth 32)) :=
  if_pos h

/-- Which opcode a command in progress has, from the state it is in. -/
theorem pcLegal_cases (op : Byte) (st : St) (ph : Phase) (h : pcLegal op st ph = true) :
    st = .idle ∨
    (st = .poll ∧ (op = opWrcmd ∨ ph = .one ∧ (op = opWaitrd ∨ op = opWaitwr))) ∨
    ((st = .sel ∨ st = .dat ∨ st = .ctl) ∧
      (op = opWrcmd ∨ ph = .one ∧ (op = opIssuerd ∨ op = opIssuewr))) ∨
    ((st = .rd1 ∨ st = .rd2 ∨ st = .ack) ∧ op = opRdcmd ∧ ph = .one) := by
  cases st <;>
    simp only [pcLegal, Bool.or_eq_true, Bool.and_eq_true, beq_iff_eq] at h ⊢ <;> simp <;> tauto

/-! ### Counters -/

/-- A counter of `width` bits holds a number below `2 ^ width`. -/
theorem counterNext_lt (width n : Nat) : counterNext width n < 2 ^ width :=
  Nat.mod_lt _ (Nat.two_pow_pos width)

/-- A counter that is below its top counts up by 1. -/
theorem counterNext_of_lt (width n : Nat) (h : n + 1 < 2 ^ width) :
    counterNext width n = n + 1 := Nat.mod_eq_of_lt h

/-- A counter at its top goes back to 0. -/
theorem counterNext_top (width n : Nat) (h : n + 1 = 2 ^ width) : counterNext width n = 0 := by
  simp [counterNext, h]

/-! ### Access -/

theorem State.access_pending (req : Request) (k : Word → State → State) (s : State)
    (h : s.accPort.done = false) :
    State.access req k s = State.advanceEnv (State.advanceHost false s) := by
  simp [State.access, h]

theorem State.access_fail (req : Request) (k : Word → State → State) (s : State)
    (h : s.accPort.done = true) (hf : s.accPort.fail = true) :
    State.access req k s = State.raise .accessFailure
      (State.record req .fail s.accPort.reached (State.advanceEnv (State.advanceHost false s))) := by
  simp [State.access, h, hf]

theorem State.access_ok (req : Request) (k : Word → State → State) (s : State)
    (h : s.accPort.done = true) (hf : s.accPort.fail = false) :
    State.access req k s = k s.accPort.rdata
      (State.record req (req.okReply s.accPort.rdata) true
        (State.advanceEnv (State.advanceHost false s))) := by
  simp [State.access, h, hf]

theorem State.transact_some (k : Word → State → State) (s : State) (req : Request)
    (h : s.request = some req) : State.transact k s = .next (State.access req k s) := by
  simp [State.transact, h]

theorem State.transact_none (k : Word → State → State) (s : State) (h : s.request = none) :
    State.transact k s = .fault .noTransition := by
  simp [State.transact, h]

/-- `transact` depends on what is done with an answer only where a transaction is enabled. -/
theorem State.transact_congr (k k' : Word → State → State) (s : State)
    (h : s.st ≠ .idle → pcLegal s.op s.st s.ph = true → k = k') :
    State.transact k s = State.transact k' s := by
  cases hr : s.request with
  | none => rw [State.transact_none k s hr, State.transact_none k' s hr]
  | some req =>
    obtain ⟨h1, h2⟩ := (State.request_some_iff s).mp ⟨req, hr⟩
    rw [h h1 h2]

/-! ### The poll step -/

/-- Everything a sample can do: end the poll with DeviceUnresponsive, succeed, end it with Timeout,
or ask for another sample (R79). -/
theorem State.pollStep_cases (success : State → State) (v : Byte) (s : State) :
    let s1 := State.countAbsent v (State.countRound s)
    let idle := isIdleSample (busyMask s.cfg s.op) v
    (isAbsentSample s.cfg v = true ∧ s1.ffc = s.cfg.ffLimit ∧
      State.pollStep success v s = State.raise .deviceUnresponsive s1) ∨
    (¬ (isAbsentSample s.cfg v = true ∧ s1.ffc = s.cfg.ffLimit) ∧
      ((idle = true ∧ s.prevIdle = true ∧ State.pollStep success v s = success s1) ∨
       (¬ (idle = true ∧ s.prevIdle = true) ∧
        ((s1.rounds = s.cfg.pollBudget ∧ roundOpen s.cfg idle = false ∧
            State.pollStep success v s = State.raise .timeout { s1 with prevIdle := idle }) ∨
         (¬ (s1.rounds = s.cfg.pollBudget ∧ roundOpen s.cfg idle = false) ∧
            State.pollStep success v s = { s1 with prevIdle := idle }))))) := by
  intro s1 idle
  have and_beq (b : Bool) (m n : Nat) : (b && m == n) = true ↔ b = true ∧ m = n := by simp
  by_cases h1 : isAbsentSample s.cfg v = true ∧ s1.ffc = s.cfg.ffLimit
  · exact .inl ⟨h1.1, h1.2, if_pos ((and_beq ..).mpr h1)⟩
  · refine .inr ⟨h1, ?_⟩
    have e1 := mt (and_beq ..).mp h1
    by_cases h2 : idle = true ∧ s.prevIdle = true
    · exact .inl ⟨h2.1, h2.2, (if_neg e1).trans (if_pos ((Bool.and_eq_true ..).mpr h2))⟩
    · refine .inr ⟨h2, ?_⟩
      have e2 : ¬ (idle && s1.prevIdle) = true := fun h => h2 ((Bool.and_eq_true ..).mp h)
      have and_not (m n : Nat) (b : Bool) : (m == n && !b) = true ↔ m = n ∧ b = false := by simp
      by_cases h3 : s1.rounds = s.cfg.pollBudget ∧ roundOpen s.cfg idle = false
      · exact .inl ⟨h3.1, h3.2,
          (if_neg e1).trans ((if_neg e2).trans (if_pos ((and_not ..).mpr h3)))⟩
      · exact .inr ⟨h3, (if_neg e1).trans ((if_neg e2).trans (if_neg (mt (and_not ..).mp h3)))⟩

/-! ### Commands -/

/-- `Accept` of each command, as one function. -/
def State.acceptCommand (i : Instr) (s : State) : State :=
  match i with
  | .waitrd d r x y z => State.enterPoll (State.accept opWaitrd d.bits r x y z s)
  | .waitwr d r x y z => State.enterPoll (State.accept opWaitwr d.bits r x y z s)
  | .issuerd d x y r z => State.goto .sel (State.accept opIssuerd d.bits r x y z s)
  | .issuewr d x y r z => State.goto .sel (State.accept opIssuewr d.bits r x y z s)
  | .rdcmd d r x y z => State.goto .rd1 (State.accept opRdcmd d.bits r x y z s)
  | .wrcmd d b0 b1 b2 x y z =>
    State.enterPoll (State.accept opWrcmd d.bits (internalRegisterNumber b0 b1 b2) x y z s)

/-- What an answer does to a command in progress, as one function of `op` and `st` (R15). -/
def State.onAnswer (op : Byte) (x : St) (v : Word) (t : State) : State :=
  match x with
  | .idle => t
  | .poll =>
    State.pollStep (if op = opWrcmd then State.goto .sel else State.complete)
      (v.extractLsb' 0 8) t
  | .sel => State.goto .dat t
  | .dat => State.goto .ctl t
  | .ctl =>
    if op = opWrcmd then State.phaseEnds (State.countIssue t) else State.complete (State.countIssue t)
  | .rd1 => State.goto .rd2 { t with d1 := v }
  | .rd2 => State.goto .ack { t with d2 := v }
  | .ack => State.complete t

theorem exec_idle (i : Instr) (s : State) (h : s.st = .idle) :
    exec i s = .next (State.acceptCommand i s) := by
  cases i <;>
    simp [exec, execWaitrd, execWaitwr, execIssuerd, execIssuewr, execRdcmd, execWrcmd,
      State.commandEvent, State.acceptCommand, h]

theorem exec_busy (i : Instr) (s : State) (h : s.st ≠ .idle) (hop : s.op = i.opcode) :
    exec i s = State.transact (State.onAnswer s.op s.st) s := by
  cases i <;> simp only [Instr.opcode] at hop <;>
    simp only [exec, execWaitrd, execWaitwr, execIssuerd, execIssuewr, execRdcmd, execWrcmd,
      State.commandEvent, if_neg h, if_pos hop, State.samplePoll, State.issueStep]
  case wrcmd =>
    cases hs : s.st <;>
      refine State.transact_congr _ _ s fun _ hl => ?_ <;>
      rw [hop] at hl ⊢ <;>
      simp_all [pcLegal, opWrcmd, opRdcmd] <;> rfl
  all_goals
    refine State.transact_congr _ _ s fun _ hl => ?_
    rw [hop] at hl ⊢
    cases hs : s.st <;>
      simp_all [pcLegal, opWaitrd, opWaitwr, opIssuerd, opIssuewr, opRdcmd, opWrcmd] <;> rfl

end Sys2Proof.Machine
end

