-- ==== Sys2Proof/Laws/PerInstr.lean ====
section
/-! SUPPORT. One lemma per constructor of `Instr`: its encoding carries its opcode in `cw[143:136]`,
and that opcode is one of the six of 30_encoding.md R52. -/

namespace Sys2Proof.Laws

open Sys2Proof Sys2Proof.Config

/-- The opcode field of an encoded instruction is its opcode, a defined one. -/
def OpcodeField.Statement (i : Instr) : Prop :=
  opField (encode i) = i.opcode ∧ i.opcode ∈ definedOpcodes

theorem OpcodeField.waitrd (d : DevAddr) (r : BitVec REG_W) (x y z : Word) :
    OpcodeField.Statement (.waitrd d r x y z) :=
  ⟨opField_packWord .., by show opWaitrd ∈ definedOpcodes; decide⟩

theorem OpcodeField.waitwr (d : DevAddr) (r : BitVec REG_W) (x y z : Word) :
    OpcodeField.Statement (.waitwr d r x y z) :=
  ⟨opField_packWord .., by show opWaitwr ∈ definedOpcodes; decide⟩

theorem OpcodeField.issuerd (d : DevAddr) (x y : Word) (r : BitVec REG_W) (z : Word) :
    OpcodeField.Statement (.issuerd d x y r z) :=
  ⟨opField_packWord .., by show opIssuerd ∈ definedOpcodes; decide⟩

theorem OpcodeField.issuewr (d : DevAddr) (x y : Word) (r : BitVec REG_W) (z : Word) :
    OpcodeField.Statement (.issuewr d x y r z) :=
  ⟨opField_packWord .., by show opIssuewr ∈ definedOpcodes; decide⟩

theorem OpcodeField.rdcmd (d : DevAddr) (r : BitVec REG_W) (x y z : Word) :
    OpcodeField.Statement (.rdcmd d r x y z) :=
  ⟨opField_packWord .., by show opRdcmd ∈ definedOpcodes; decide⟩

theorem OpcodeField.wrcmd (d : DevAddr) (b0 b1 b2 : Byte) (x y z : Word) :
    OpcodeField.Statement (.wrcmd d b0 b1 b2 x y z) :=
  ⟨opField_packWord .., by show opWrcmd ∈ definedOpcodes; decide⟩

end Sys2Proof.Laws
end

