-- ==== Sys2Proof/Laws/Step.lean ====
section
/-! SUPPORT. What one step can do, said once: every later fact about `step` follows from these. -/

namespace Sys2Proof.Machine

open Sys2Proof.Config

theorem step_reset (s : State) (hc : s.cfg.wellFormed = true) (hr : s.host.rst = true) :
    step s = .next s.resetEvent := by
  simp [step, hc, hr]

theorem step_wait (s : State) (hc : s.cfg.wellFormed = true) (hr : s.host.rst = false)
    (hs : s.st = .idle) (hv : s.host.cmdValid = false) : step s = .next s.waitForCommand := by
  simp [step, hc, hr, hs, hv]

theorem State.currentWord_idle (s : State) (hs : s.st = .idle) :
    s.currentWord = s.host.cmdWord := by
  simp [State.currentWord, hs]

theorem State.currentWord_busy (s : State) (hs : s.st ≠ .idle) :
    s.currentWord = s.latchedWord := by
  unfold State.currentWord
  split
  · contradiction
  · rfl

theorem State.opField_latchedWord (s : State) : opField s.latchedWord = s.op := opField_packWord ..

/-- In IDLE with an offer, a defined opcode: `Accept` (R24). -/
theorem step_accept (s : State) (i : Instr) (hc : s.cfg.wellFormed = true)
    (hr : s.host.rst = false) (hs : s.st = .idle) (hv : s.host.cmdValid = true)
    (hd : decode s.host.cmdWord = .ok i) : step s = .next (State.acceptCommand i s) := by
  simp [step, hc, hr, hs, hv, State.currentWord_idle, hd, exec_idle]

/-- In IDLE with an offer, a reserved opcode (R56). -/
theorem step_illegal (s : State) (hc : s.cfg.wellFormed = true)
    (hr : s.host.rst = false) (hs : s.st = .idle) (hv : s.host.cmdValid = true)
    (hd : opField s.host.cmdWord ∉ definedOpcodes) :
    step s = .next (State.acceptIllegal s.host.cmdWord s) := by
  simp [step, hc, hr, hs, hv, State.currentWord_idle, decode_of_reserved _ hd, State.reservedEvent]

/-- A legal sequencer state outside IDLE has a defined opcode. -/
theorem pcLegal_defined (op : Byte) (st : St) (ph : Phase) (h : pcLegal op st ph = true)
    (hs : st ≠ .idle) : op ∈ definedOpcodes := by
  simp only [definedOpcodes, List.mem_cons, List.not_mem_nil, or_false]
  have := pcLegal_cases op st ph h
  tauto

/-- In a command: its enabled transaction is answered, or waits (R14, R15). -/
theorem step_busy (s : State) (hc : s.cfg.wellFormed = true) (hr : s.host.rst = false)
    (hs : s.st ≠ .idle) : step s = State.transact (State.onAnswer s.op s.st) s := by
  simp only [step, hc, hr, hs, if_true, if_false, false_and, Bool.false_eq_true]
  rw [State.currentWord_busy s hs]
  by_cases hd : opField s.latchedWord ∈ definedOpcodes
  · obtain ⟨i, hi⟩ := decode_of_defined _ hd
    rw [hi]
    have := decode_ok_opcode _ _ hi
    rw [State.opField_latchedWord] at this
    exact exec_busy i s hs this.symm
  · rw [decode_of_reserved _ hd]
    rw [State.opField_latchedWord] at hd
    have : s.request = none := by
      cases h : s.request with
      | none => rfl
      | some req =>
        obtain ⟨_, h2⟩ := (State.request_some_iff s).mp ⟨req, h⟩
        exact absurd (pcLegal_defined _ _ _ h2 hs) hd
    rw [State.transact_none _ s this]
    simp [State.reservedEvent, hs]

/-- The state in which the answer of the enabled transaction is processed. -/
def State.ticked (s : State) : State := State.advanceEnv (State.advanceHost false s)

@[simp] theorem State.ticked_st (s : State) : s.ticked.st = s.st := rfl
@[simp] theorem State.ticked_ph (s : State) : s.ticked.ph = s.ph := rfl
@[simp] theorem State.ticked_op (s : State) : s.ticked.op = s.op := rfl
@[simp] theorem State.ticked_addr (s : State) : s.ticked.addr = s.addr := rfl
@[simp] theorem State.ticked_reg (s : State) : s.ticked.reg = s.reg := rfl
@[simp] theorem State.ticked_a (s : State) : s.ticked.a = s.a := rfl
@[simp] theorem State.ticked_b (s : State) : s.ticked.b = s.b := rfl
@[simp] theorem State.ticked_c (s : State) : s.ticked.c = s.c := rfl
@[simp] theorem State.ticked_d1 (s : State) : s.ticked.d1 = s.d1 := rfl
@[simp] theorem State.ticked_d2 (s : State) : s.ticked.d2 = s.d2 := rfl
@[simp] theorem State.ticked_rounds (s : State) : s.ticked.rounds = s.rounds := rfl
@[simp] theorem State.ticked_ffc (s : State) : s.ticked.ffc = s.ffc := rfl
@[simp] theorem State.ticked_prevIdle (s : State) : s.ticked.prevIdle = s.prevIdle := rfl
@[simp] theorem State.ticked_resValid (s : State) : s.ticked.resValid = s.resValid := rfl
@[simp] theorem State.ticked_status (s : State) : s.ticked.status = s.status := rfl
@[simp] theorem State.ticked_issued (s : State) : s.ticked.issued = s.issued := rfl
@[simp] theorem State.ticked_cfg (s : State) : s.ticked.cfg = s.cfg := rfl
@[simp] theorem State.ticked_host (s : State) : s.ticked.host = s.nextHost false := rfl
@[simp] theorem State.ticked_hostNext (s : State) : s.ticked.hostNext = s.hostNext.tail := rfl
@[simp] theorem State.ticked_env (s : State) : s.ticked.env = s.env.tail := rfl
@[simp] theorem State.ticked_draws (s : State) : s.ticked.draws = s.draws + 1 := rfl
@[simp] theorem State.ticked_trace (s : State) : s.ticked.trace = s.trace := rfl
@[simp] theorem State.ticked_written (s : State) : s.ticked.written = s.written := rfl

/-- Everything a step that answers a next state can do: `Reset`, wait in IDLE, `Accept` of a
reserved word, `Accept` of a command, wait for an answer, AccessFailure, or process an answer. -/
theorem step_cases (s t : State) (h : step s = .next t) :
    s.cfg.wellFormed = true ∧
    ((s.host.rst = true ∧ t = s.resetEvent) ∨
     (s.host.rst = false ∧
      ((s.st = .idle ∧ s.host.cmdValid = false ∧ t = s.waitForCommand) ∨
       (s.st = .idle ∧ s.host.cmdValid = true ∧ opField s.host.cmdWord ∉ definedOpcodes ∧
          t = State.acceptIllegal s.host.cmdWord s) ∨
       (s.st = .idle ∧ s.host.cmdValid = true ∧ ∃ i, decode s.host.cmdWord = .ok i ∧
          t = State.acceptCommand i s) ∨
       (s.st ≠ .idle ∧ pcLegal s.op s.st s.ph = true ∧ ∃ req, s.request = some req ∧
         ((s.accPort.done = false ∧ t = s.ticked) ∨
          (s.accPort.done = true ∧ s.accPort.fail = true ∧
            t = State.raise .accessFailure (State.record req .fail s.accPort.reached s.ticked)) ∨
          (s.accPort.done = true ∧ s.accPort.fail = false ∧
            t = State.onAnswer s.op s.st s.accPort.rdata
              (State.record req (req.okReply s.accPort.rdata) true s.ticked))))))) := by
  by_cases hc : s.cfg.wellFormed = true
  swap
  · simp [step, hc] at h
  refine ⟨hc, ?_⟩
  by_cases hr : s.host.rst = true
  · rw [step_reset s hc hr] at h
    injection h with h
    exact .inl ⟨hr, h.symm⟩
  have hr : s.host.rst = false := by simpa using hr
  refine .inr ⟨hr, ?_⟩
  by_cases hs : s.st = .idle
  · by_cases hv : s.host.cmdValid = true
    · by_cases hd : opField s.host.cmdWord ∈ definedOpcodes
      · obtain ⟨i, hi⟩ := decode_of_defined _ hd
        rw [step_accept s i hc hr hs hv hi] at h
        injection h with h
        exact .inr (.inr (.inl ⟨hs, hv, i, hi, h.symm⟩))
      · rw [step_illegal s hc hr hs hv hd] at h
        injection h with h
        exact .inr (.inl ⟨hs, hv, hd, h.symm⟩)
    · have hv : s.host.cmdValid = false := by simpa using hv
      rw [step_wait s hc hr hs hv] at h
      injection h with h
      exact .inl ⟨hs, hv, h.symm⟩
  · rw [step_busy s hc hr hs] at h
    cases hq : s.request with
    | none => rw [State.transact_none _ s hq] at h; cases h
    | some req =>
      rw [State.transact_some _ s req hq] at h
      injection h with h
      refine .inr (.inr (.inr ⟨hs, ((State.request_some_iff s).mp ⟨req, hq⟩).2, req, rfl, ?_⟩))
      cases hd : s.accPort.done with
      | false =>
        rw [State.access_pending req _ s hd] at h
        exact .inl ⟨rfl, h.symm⟩
      | true =>
        cases hf : s.accPort.fail with
        | true =>
          rw [State.access_fail req _ s hd hf] at h
          exact .inr (.inl ⟨rfl, rfl, h.symm⟩)
        | false =>
          rw [State.access_ok req _ s hd hf] at h
          exact .inr (.inr ⟨rfl, rfl, h.symm⟩)

/-- A step of a command, from the enabled transaction and the port: the answer processed. -/
theorem step_answer (s : State) (req : Request) (hc : s.cfg.wellFormed = true)
    (hr : s.host.rst = false) (hq : s.request = some req) (hd : s.accPort.done = true)
    (hf : s.accPort.fail = false) :
    step s = .next (State.onAnswer s.op s.st s.accPort.rdata
      (State.record req (req.okReply s.accPort.rdata) true s.ticked)) := by
  have hs := ((State.request_some_iff s).mp ⟨req, hq⟩).1
  rw [step_busy s hc hr hs, State.transact_some _ s req hq, State.access_ok req _ s hd hf]
  rfl

/-- A step of a command whose transaction fails. -/
theorem step_fail (s : State) (req : Request) (hc : s.cfg.wellFormed = true)
    (hr : s.host.rst = false) (hq : s.request = some req) (hd : s.accPort.done = true)
    (hf : s.accPort.fail = true) :
    step s = .next (State.raise .accessFailure
      (State.record req .fail s.accPort.reached s.ticked)) := by
  have hs := ((State.request_some_iff s).mp ⟨req, hq⟩).1
  rw [step_busy s hc hr hs, State.transact_some _ s req hq, State.access_fail req _ s hd hf]
  rfl

/-- A step of a command whose transaction is not answered. -/
theorem step_pending (s : State) (req : Request) (hc : s.cfg.wellFormed = true)
    (hr : s.host.rst = false) (hq : s.request = some req) (hd : s.accPort.done = false) :
    step s = .next s.ticked := by
  have hs := ((State.request_some_iff s).mp ⟨req, hq⟩).1
  rw [step_busy s hc hr hs, State.transact_some _ s req hq, State.access_pending req _ s hd]
  rfl

end Sys2Proof.Machine
end

