-- ==== Sys2Proof/Machine/HostProgram.lean ====
section
/-! DEFINITION. A host with a program (70_reset_and_hazards.md R156, R157): how it gives the
commands of a finite list one after the other, and the duties R144, R145 and R147 as properties of
what it gave. The block checks none of them. -/

namespace Sys2Proof.Machine

open Sys2Proof.Config

/-- The DeviceAddress of a command. -/
def commandAddr : Instr → DevAddr
  | .waitrd d _ _ _ _ => d
  | .waitwr d _ _ _ _ => d
  | .issuerd d _ _ _ _ => d
  | .issuewr d _ _ _ _ => d
  | .rdcmd d _ _ _ _ => d
  | .wrcmd d _ _ _ _ _ _ => d

/-! ## A run of a host program (R157) -/

/-- The host offers a command word and nothing more. -/
def State.offer (cw : CmdWord) (s : State) : State :=
  { s with host := ⟨false, true, cw⟩, hostNext := [] }

/-- Steps until the block is in IDLE, at most `fuel` of them. -/
def State.untilIdle : Nat → State → State
  | 0, s => s
  | fuel + 1, s =>
    if s.st = .idle then s
    else
      match step s with
      | .next t => State.untilIdle fuel t
      | .fault _ => s
      | .refused _ => s

/-- One command from its offer to its end: the `Accept` step, then at most `fuel` steps. -/
def State.giveCommand (fuel : Nat) (cw : CmdWord) (s : State) : State :=
  match step (State.offer cw s) with
  | .next t => State.untilIdle fuel t
  | .fault _ => s
  | .refused _ => s

/-- A run of a host program, with the results the host reads. Policy D30: it stops at the first
status other than OK, and where a command has no result within its `fuel` steps. -/
def State.runProgram (fuel : Nat) : List CmdWord → State → State × List CommandResult
  | [], s => (s, [])
  | cw :: rest, s =>
    let t := State.giveCommand fuel cw s
    match t.result with
    | none => (t, [])
    | some r =>
      if r.status = .ok then
        let (u, rs) := State.runProgram fuel rest t
        (u, r :: rs)
      else (t, [r])

/-! ## The host's duties (R144, R145, R147) -/

/-- A command that the host gave and the block accepted, and how it ended. -/
structure Given where
  instr : Instr
  /-- The status of its result; `none` where `Reset` abandoned it, which leaves no result (R141). -/
  status : Option Status
  /-- The triggers it made: `issued` of its result or, where it was abandoned, `issued` as the block
  held it when `Reset` came. -/
  issued : BitVec 2
  deriving DecidableEq, Repr

/-- Whether a command made a trigger. A trigger is a CTL write that completed, and `issued` counts
them (10_state.md R18): a command that failed before its first CTL write completed made none, a
WRCMD that `Reset` abandoned in phase 2 made one. DESIGN CHOICE (notes/assumptions/22.md): a CTL
write outstanding at `Reset` is not counted. R141 leaves open whether it takes effect, and R144 does
not say whether it then is 'the last trigger'. -/
def madeTrigger (g : Given) : Bool := g.issued != 0

/-- Looking back (most recent first) for a successful command with opcode `op` on the device `d`,
with no trigger to `d` in between. -/
def confirmedSince (op : Byte) (d : DevAddr) : List Given → Bool
  | [] => false
  | g :: before =>
    if commandAddr g.instr = d then
      if g.instr.opcode = op && g.status == some .ok then true
      else if madeTrigger g then false
      else confirmedSince op d before
    else confirmedSince op d before

/-- R144: an ISSUEWR needs a successful WAITWR, an ISSUERD a successful WAITRD, on the same device
since the last trigger to it. -/
def pollBeforeIssue (before : List Given) : Instr → Bool
  | .issuerd d _ _ _ _ => confirmedSince opWaitrd d before
  | .issuewr d _ _ _ _ => confirmedSince opWaitwr d before
  | .waitrd _ _ _ _ _ => true
  | .waitwr _ _ _ _ _ => true
  | .rdcmd _ _ _ _ _ => true
  | .wrcmd _ _ _ _ _ _ _ => true

/-- R145: an RDCMD needs a successful WAITRD or a successful ISSUERD on the same device before it.
DESIGN CHOICE (notes/assumptions/22.md): the spec leaves open which of the two makes the data valid
(90_conflicts.md C12, 91_not_in_source.md N9), and how recent it must be. This takes either one, at
any earlier time, however many triggers lie between: the weakest reading of the duty. -/
def validBeforeCollect (before : List Given) : Instr → Bool
  | .rdcmd d _ _ _ _ => before.any fun g =>
      commandAddr g.instr == d && g.status == some .ok &&
        (g.instr.opcode == opWaitrd || g.instr.opcode == opIssuerd)
  | .waitrd _ _ _ _ _ => true
  | .waitwr _ _ _ _ _ => true
  | .issuerd _ _ _ _ _ => true
  | .issuewr _ _ _ _ _ => true
  | .wrcmd _ _ _ _ _ _ _ => true

/-- R147: the commands of one composed sequence address one device. -/
def oneDevice : List Instr → Bool
  | [] => true
  | i :: rest => rest.all fun j => commandAddr j == commandAddr i

/-- R144 and R145 for a whole list of commands given, oldest first; `before` is what came earlier,
most recent first. -/
def dutiesKept (before : List Given) : List Given → Bool
  | [] => true
  | g :: rest =>
    pollBeforeIssue before g.instr && validBeforeCollect before g.instr &&
      dutiesKept (g :: before) rest

end Sys2Proof.Machine
end

