-- ==== Sys2Proof/Tests/Slice0.lean ====
section
/-! SUPPORT. Tests. Expected values come from spec/95_test_vectors.md (named V<n>, P<n>) or are
worked by hand from the rule named; the `witness_` theorems show, for each statement with
hypotheses, a concrete state that meets all of them. -/

namespace Sys2Proof.Tests

open Sys2Proof Sys2Proof.Machine Sys2Proof.Config

/-! ## Helpers -/

/-- The instruction that a word decodes to. -/
def decoded (cw : CmdWord) : Option Instr :=
  match decode cw with
  | .ok i => some i
  | .error _ => none

/-- The state after one step, or the same state where there is none. -/
def after (s : State) : State :=
  match step s with
  | .next t => t
  | .fault _ => s
  | .refused _ => s

/-- The state after some steps. -/
def afterN : Nat → State → State
  | 0, s => s
  | n + 1, s => afterN n (after s)

/-- The block in IDLE with a word offered. -/
def offering (cw : CmdWord) (env : List AccPort) : State :=
  { State.reset with host := ⟨false, true, cw⟩, env := env }

/-- The block inside a command to 03:00.0. -/
def inside (op : Byte) (st : St) (ph : Phase) (env : List AccPort) : State :=
  { State.reset with
    st := st, ph := ph, op := op, addr := 0x0300, reg := 0x10, a := 0xAAAA, b := 0x20, c := 0xBBBB
    issued := match ph with | .one => 0 | .two => 1
    env := env }

/-- A configuration with a small budget. -/
def small (budget : Nat) (paired : Bool) : Params :=
  { Params.hardware with pollBudget := budget, ffLimit := 2, pairedConfirm := paired }

/-- An answer that is a failure. -/
def answerFail : AccPort := ⟨true, true, 0, false⟩
/-- No answer yet. -/
def noAnswer : AccPort := ⟨false, false, 0, false⟩

/-- The address 03:00.0. -/
def dev3 : DevAddr := ⟨0x03, 0, 0⟩
/-- The word of the example of 30_encoding.md R62. -/
def wordWrcmd : CmdWord := 0x0A03000000100000AAAA000000200000BBBB
/-- The instruction of that word. -/
def theWrcmd : Instr := .wrcmd dev3 0x10 0 0 0xAAAA 0x20 0xBBBB
/-- `WAITRD 03:00.0`. -/
def wordWaitrd : CmdWord := 0x010300000000000000000000000000000000
/-- `WAITWR 03:00.0`. -/
def wordWaitwr : CmdWord := 0x020300000000000000000000000000000000
/-- V31. -/
def wordIssuerd : CmdWord := 0x050300000000000302010000000000000000
/-- V32. -/
def wordIssuewr : CmdWord := 0x060300000000000000100000AAAA00000000
/-- `RDCMD 03:00.0`. -/
def wordRdcmd : CmdWord := 0x090300000000000000000000000000000000

/-- The answers of a WRCMD that succeeds at once. -/
def tenAnswers : List AccPort :=
  [sampleOf 0, sampleOf 0, answerOk 0, answerOk 0, answerOk 0,
   sampleOf 0, sampleOf 0, answerOk 0, answerOk 0, answerOk 0]

/-- The invariant, for a state without a trace. -/
theorem inv_of_empty_trace (s : State) (ht : s.trace = [])
    (h : s.cfg.wellFormed = true ∧ pcLegal s.op s.st s.ph = true ∧
      (s.st ≠ .idle → s.resValid = false) ∧
      (s.issued.toNat ≤ 2 ∧
        (s.st ≠ .idle → s.issued = match s.ph with | .one => 0 | .two => 1)) ∧
      (s.rounds ≤ s.cfg.pollBudget ∧ s.ffc ≤ s.cfg.ffLimit ∧
        (s.st = .poll → s.ffc < s.cfg.ffLimit ∧
          (s.rounds < s.cfg.pollBudget ∨
            (s.cfg.pairedConfirm = true ∧ s.prevIdle = true)))) ∧
      Memory.wf s.written) : s.Inv :=
  ⟨h.1, h.2.1, h.2.2.1, h.2.2.2.1, h.2.2.2.2.1, h.2.2.2.2.2, by simp [ht]⟩

/-! ## Decoding: words written from 30_encoding.md R50, R52, R53 -/

/-- V57: bus 0xAB, device 0b10101, function 0b101. -/
theorem test_decode_waitrd :
    decoded 0x01ABAD000000000000000000000000000000 = some (.waitrd ⟨0xAB, 0x15, 0x5⟩ 0 0 0 0) := by
  decide
theorem test_decode_waitwr : decoded wordWaitwr = some (.waitwr dev3 0 0 0 0) := by decide
/-- V31; the ignored fields of V61 next. -/
theorem test_decode_issuerd : decoded wordIssuerd = some (.issuerd dev3 0x00030201 0 0 0) := by
  decide
theorem test_decode_issuerd_ignored :
    decoded 0x050300ABCDEF0003020100000000DEADBEEF =
      some (.issuerd dev3 0x00030201 0 0xABCDEF 0xDEADBEEF) := by decide
/-- V32. -/
theorem test_decode_issuewr : decoded wordIssuewr = some (.issuewr dev3 0x10 0xAAAA 0 0) := by
  decide
theorem test_decode_rdcmd : decoded wordRdcmd = some (.rdcmd dev3 0 0 0 0) := by decide
/-- V59. -/
theorem test_decode_wrcmd : decoded wordWrcmd = some theWrcmd := by decide
/-- V58. -/
theorem test_decode_wrcmd_corners :
    decoded 0x0A00FFFFFFFFFFFFFFFF0000000080000000 =
      some (.wrcmd ⟨0x00, 0x1F, 0x7⟩ 0xFF 0xFF 0xFF 0xFFFFFFFF 0 0x80000000) := by decide
/-- The three register bytes in their places (R50, R100's example). -/
theorem test_decode_register_bytes :
    decoded 0x0A0300030201000000000000000000000000 =
      some (.wrcmd dev3 0x01 0x02 0x03 0 0 0) := by decide
/-- V60: reserved opcodes. -/
theorem test_decode_reserved :
    ∀ op ∈ [0x00, 0x03, 0x04, 0x07, 0x08, 0x0B, 0x10, 0x81, 0xFF],
      decoded (packWord (BitVec.ofNat 8 op) 0x0300 0 0 0 0) = none := by decide
/-- The table's numbering: one word of 144 bits, `op` in the top byte. -/
theorem test_table_word :
    decodeTableWord 144 0x0A03000000100000AAAA000000200000BBBB = some theWrcmd := by decide
/-- R62's example, assembled and written. -/
theorem test_assemble :
    (Line.wrcmd dev3 0x10 0 0 0xAAAA 0x20 0xBBBB).assemble = wordWrcmd := by decide
theorem test_cmd_word_text :
    cmdWordText wordWrcmd = "0A 0300 000010 0000AAAA 00000020 0000BBBB" := by decide
theorem test_line_text : (Line.waitrd ⟨0xAB, 0x15, 0x5⟩).text = "WAITRD ab:15.5" := by decide

/-! ## Well-formedness: each check of 00_scope.md R5 refuses a record that breaks it -/

theorem test_hardware_well_formed : Params.hardware.wellFormed = true := by decide
theorem test_refuses_budget_zero :
    ({ Params.hardware with pollBudget := 0 } : Params).budgetOk = false := by decide
theorem test_refuses_budget_too_wide :
    ({ Params.hardware with pollBudget := 65536 } : Params).wellFormed = false := by decide
theorem test_refuses_limit_zero :
    ({ Params.hardware with ffLimit := 0 } : Params).limitOk = false := by decide
theorem test_refuses_limit_too_wide :
    ({ Params.hardware with ffLimit := 16 } : Params).wellFormed = false := by decide
theorem test_refuses_equal_offsets :
    ({ Params.hardware with ctrlOff := 0xFC } : Params).offsetsDistinct = false := by decide
theorem test_refuses_unaligned_offset :
    ({ Params.hardware with selOff := 0xFA } : Params).offsetsAligned = false := by decide
theorem test_refuses_two_bit_flag :
    ({ Params.hardware with readBusy := 0x05 } : Params).flagsOk = false := by decide
theorem test_refuses_equal_flags :
    ({ Params.hardware with readBusy := 0x02 } : Params).flagsOk = false := by decide
theorem test_refuses_idle_absent_byte :
    ({ Params.hardware with absentByte := 0xFD } : Params).absentBusy = false := by decide
/-- R4: the counter widths are parameters; a wider counter admits a larger budget or limit. -/
theorem test_admits_wider_counters :
    ({ Params.hardware with pollBudget := 70000, roundsW := 17 } : Params).wellFormed = true ∧
    ({ Params.hardware with ffLimit := 16, ffcW := 5 } : Params).wellFormed = true := by decide
/-- R4, R50: `DEBOUNCE` and the three address widths have the values the rules are written for. -/
theorem test_refuses_other_layout :
    ({ Params.hardware with debounce := 3 } : Params).layoutOk = false ∧
    ({ Params.hardware with busW := 9 } : Params).layoutOk = false ∧
    ({ Params.hardware with devW := 6 } : Params).layoutOk = false ∧
    ({ Params.hardware with fnW := 2 } : Params).layoutOk = false := by decide
/-- A record that meets R5 but not the layout is refused under its own name. -/
theorem test_step_refuses_other_layout :
    step { State.reset with cfg := { Params.hardware with debounce := 3 } } =
      .refused .layoutMismatch := by rfl
/-- R6: addition in a counter is modulo two to its width. -/
theorem test_counter_wraps :
    counterNext 4 15 = 0 ∧ counterNext 5 15 = 16 ∧ counterNext 16 65535 = 0 := by decide
/-- R5: `CTRL_OFF` is any byte offset. -/
theorem test_admits_odd_ctrl_off :
    ({ Params.hardware with ctrlOff := 0xE1 } : Params).wellFormed = true := by decide
/-- R54: what an assembler does not write. -/
theorem test_instr_not_well_formed :
    ([.waitrd dev3 1 0 0 0, .waitwr dev3 0 1 0 0, .issuerd dev3 0 0 1 0, .issuewr dev3 0 0 0 1,
      .rdcmd dev3 0 0 0 1] : List Instr).all (fun i => !i.wellFormed) = true := by decide
theorem test_wrcmd_well_formed : theWrcmd.wellFormed = true := by decide

/-! ## One step of each command -/

/-- R80: 0xFE is an idle sample for WAITRD; after one idle sample before it, OK. -/
theorem test_waitrd_confirms :
    (after { inside opWaitrd .poll .one [sampleOf 0xFE] with prevIdle := true }).result =
      some ⟨.ok, 0, none⟩ := by decide
/-- R75, R127 (a): the tenth 0xFF on the last round is DeviceUnresponsive. -/
theorem test_waitrd_unresponsive :
    (after { inside opWaitrd .poll .one [sampleOf 0xFF] with
      ffc := 9, rounds := 19999 }).result = some ⟨.deviceUnresponsive, 0, none⟩ := by decide
/-- R81: 0x02 is busy for WAITWR; the 20000th sample of the budget ends it (V5). -/
theorem test_waitwr_timeout :
    (after { inside opWaitwr .poll .one [sampleOf 0x02] with rounds := 19999 }).result =
      some ⟨.timeout, 0, none⟩ := by decide
/-- R78: paired, an idle sample on the last round leaves the round open. -/
theorem test_waitwr_round_open :
    (after { inside opWaitwr .poll .one [sampleOf 0x01] with
      cfg := small 4 true, rounds := 3 }).st = .poll := by decide
/-- R92: the trigger of ISSUERD is 0x01. -/
theorem test_issuerd_trigger :
    (after (inside opIssuerd .ctl .one [answerOk 0])).trace =
      [doneWrite (.write .byte 0x0300 0xE0 0x01)] := by decide
/-- R93: the trigger of ISSUEWR is 0x02. -/
theorem test_issuewr_trigger :
    (after (inside opIssuewr .ctl .one [answerOk 0])).trace =
      [doneWrite (.write .byte 0x0300 0xE0 0x02)] := by decide
/-- R122: a trigger that fails is not counted. -/
theorem test_issuewr_failed_trigger :
    (after (inside opIssuewr .ctl .one [answerFail])).result =
      some ⟨.accessFailure, 0, none⟩ := by decide
/-- R106: word 2 comes from 0xF4. -/
theorem test_rdcmd_second_word :
    (after (inside opRdcmd .rd2 .one [answerOk 0x55667788])).d2 = 0x55667788 := by decide
/-- R106: a failure at ACK carries no data words. -/
theorem test_rdcmd_failed_ack :
    (after (inside opRdcmd .ack .one [answerFail])).result = some ⟨.accessFailure, 0, none⟩ := by
  decide
/-- R102: the selector of phase 2 is `dat1`. -/
theorem test_wrcmd_second_selector :
    (after (inside opWrcmd .sel .two [answerOk 0])).trace =
      [doneWrite (.write .word 0x0300 0xF8 0x20)] := by decide
/-- R102: the first trigger leads to the second poll. -/
theorem test_wrcmd_second_poll :
    (after (inside opWrcmd .ctl .one [answerOk 0])).st = .poll := by decide
/-- R36: the bytes of a 32-bit write, least significant first. -/
theorem test_written_little_endian :
    (after (inside opWrcmd .dat .one [answerOk 0])).written =
      [(0x0300FC, 0xAA), (0x0300FD, 0xAA), (0x0300FE, 0x00), (0x0300FF, 0x00)] := by decide

/-! ## The host's duties -/

/-- P2 keeps R144 and R145. -/
theorem test_program_p2_keeps_duties :
    dutiesKept []
      [⟨.waitrd dev3 0 0 0 0, some .ok, 0⟩, ⟨.issuerd dev3 0x00030201 0 0 0, some .ok, 1⟩,
       ⟨.waitrd dev3 0 0 0 0, some .ok, 0⟩, ⟨.rdcmd dev3 0 0 0 0, some .ok, 0⟩] = true := by decide
/-- R144: after a trigger a second ISSUEWR needs a second WAITWR. -/
theorem test_second_issue_needs_a_second_poll :
    dutiesKept []
      [⟨.waitwr dev3 0 0 0 0, some .ok, 0⟩, ⟨.issuewr dev3 1 2 0 0, some .ok, 1⟩,
       ⟨.issuewr dev3 3 4 0 0, some .ok, 1⟩] = false := by decide
/-- R144: an ISSUEWR that failed before its trigger leaves the WAITWR before it good. -/
theorem test_failed_issue_without_trigger_keeps_duties :
    dutiesKept []
      [⟨.waitwr dev3 0 0 0 0, some .ok, 0⟩, ⟨.issuewr dev3 1 2 0 0, some .accessFailure, 0⟩,
       ⟨.issuewr dev3 3 4 0 0, some .ok, 1⟩] = true := by decide

/-- R141, R144: a WRCMD that `Reset` abandoned after its first trigger asks for a new WAITWR; one
abandoned before it does not. -/
theorem test_abandoned_command_and_duties :
    dutiesKept []
      [⟨.waitwr dev3 0 0 0 0, some .ok, 0⟩, ⟨theWrcmd, none, 1⟩,
       ⟨.issuewr dev3 1 2 0 0, some .ok, 1⟩] = false ∧
    dutiesKept []
      [⟨.waitwr dev3 0 0 0 0, some .ok, 0⟩, ⟨theWrcmd, none, 0⟩,
       ⟨.issuewr dev3 1 2 0 0, some .ok, 1⟩] = true := by decide

/-! ## Witnesses: one for each statement that has hypotheses, in the statements' order -/

theorem witness_EncodeOfDecodeIsIdentity : decode wordWrcmd = .ok theWrcmd := by rfl

/-- A defined opcode, and a reserved one. -/
theorem witness_OpcodeAloneSelectsTheCommand :
    decode wordRdcmd = .ok (.rdcmd dev3 0 0 0 0) ∧ opField (0 : CmdWord) ∉ definedOpcodes := by
  exact ⟨rfl, by decide⟩

theorem witness_InternalRegisterNumberFormulas :
    internalRegisterNumber 0x01 0x02 0x03 = internalRegisterNumber 0x01 0x02 0x03 := by rfl

theorem witness_AssembledLinesDecode :
    (Line.rdcmd dev3).instr = some (.rdcmd dev3 0 0 0 0) := by decide

/-- In a command, with a write outstanding that lands; and in IDLE. -/
theorem witness_ResetSetsEveryElement :
    (let s := { inside opWrcmd .ctl .one [⟨false, false, 0, true⟩] with host := ⟨true, false, 0⟩ }
     s.cfg.wellFormed = true ∧ s.host.rst = true ∧ (s.st = .idle → s.host.cmdValid = false) ∧
       (s.st ≠ .idle → s.accPort.done = false) ∧ s.request.isSome = true ∧
       (after s).written ≠ s.written) ∧
    (let s := { State.reset with host := ⟨true, false, 0⟩, env := [answerOk 0] }
     s.cfg.wellFormed = true ∧ s.host.rst = true ∧ (s.st = .idle → s.host.cmdValid = false) ∧
       (s.st ≠ .idle → s.accPort.done = false) ∧ s.request = none) := by
  decide

theorem witness_ResetWinsOverOfferAndAnswer :
    let s := { inside opWrcmd .ctl .one [noAnswer] with host := ⟨true, false, 0⟩ }
    s.cfg.wellFormed = true ∧ s.host.rst = true ∧ s.env = noAnswer :: [] ∧
      (answerOk 5).reached = noAnswer.reached := by decide

/-- A defined word, and a reserved one. -/
theorem witness_AcceptLatchesTheWholeWord :
    ∀ cw ∈ [wordWrcmd, (0xFF0102 : CmdWord)],
      let s := offering cw []
      s.st = .idle ∧ s.host.rst = false ∧ s.host.cmdValid = true ∧
        ∃ t, step s = .next t := by
  intro cw h
  rcases List.mem_cons.mp h with rfl | h
  · exact ⟨rfl, rfl, rfl, _, rfl⟩
  · rcases List.mem_cons.mp h with rfl | h
    · exact ⟨rfl, rfl, rfl, _, rfl⟩
    · cases h

theorem witness_AcceptOfEachCommand : (offering wordWrcmd []).st = .idle := by decide

theorem witness_ReservedOpcodeEndsWithIllegalCommand :
    let s := offering 0xFF0000000000000000000000000000000000 []
    s.cfg.wellFormed = true ∧ s.st = .idle ∧ s.host.rst = false ∧ s.host.cmdValid = true ∧
      opField s.host.cmdWord ∉ definedOpcodes := by decide

/-- The end itself, and a step in IDLE after it. -/
theorem witness_IllegalCommandOnlyAtAccept :
    (let s := offering 0 []
     s.Inv ∧ step s = .next (after s) ∧ s.host.rst = false ∧ (after s).resValid = true ∧
       (after s).status = .illegalCommand) ∧
    (let s := { State.reset with resValid := true, status := .illegalCommand }
     s.Inv ∧ step s = .next (after s) ∧ s.host.rst = false ∧ (after s).resValid = true ∧
       (after s).status = .illegalCommand) :=
  ⟨⟨inv_of_empty_trace _ rfl (by decide), rfl, rfl, rfl, rfl⟩,
   ⟨inv_of_empty_trace _ rfl (by decide), rfl, rfl, rfl, rfl⟩⟩

theorem witness_IdleWithoutOfferChangesNothing :
    State.reset.cfg.wellFormed = true ∧ State.reset.st = .idle ∧ State.reset.host.rst = false ∧
      State.reset.host.cmdValid = false := by decide

theorem witness_BadConfigurationIsRefused :
    ({ State.reset with cfg := small 0 false } : State).cfg.constraintsOk = false := by decide

/-- In IDLE, and in a command. -/
theorem witness_StepRunsTheDecodedInstruction :
    (let s := offering wordWrcmd []
     s.cfg.wellFormed = true ∧ s.host.rst = false ∧ (s.st = .idle → s.host.cmdValid = true) ∧
       decode s.currentWord = .ok theWrcmd) ∧
    (let s := inside opWrcmd .sel .two []
     s.cfg.wellFormed = true ∧ s.host.rst = false ∧ (s.st = .idle → s.host.cmdValid = true) ∧
       decode s.currentWord = .ok theWrcmd) :=
  ⟨⟨by decide, rfl, fun _ => rfl, rfl⟩, ⟨by decide, rfl, by decide, rfl⟩⟩

/-- At `Accept`, and at a later step of the command with another word offered. -/
theorem witness_AcceptedInstructionStaysCurrent :
    (let s := offering wordWrcmd []
     s.st = .idle ∧ exec theWrcmd s = .next (after s)) ∧
    (let s := { inside opWrcmd .sel .two [answerOk 0] with host := ⟨false, true, wordRdcmd⟩ }
     s.st ≠ .idle ∧ s.host.rst = false ∧ step s = .next (after s) ∧ (after s).st ≠ .idle) :=
  ⟨⟨rfl, rfl⟩, by decide, rfl, rfl, by decide⟩

theorem witness_OfferWhileBusyHasNoEffect :
    let s := inside opWrcmd .sel .two [answerOk 0]
    s.st ≠ .idle ∧ s.host.rst = false ∧ step s = .next (after s) := ⟨by decide, rfl, rfl⟩

/-- For WAITRD, and for WAITWR. -/
theorem witness_WaitSample :
    ∀ op ∈ [opWaitrd, opWaitwr],
      let s := inside op .poll .one [sampleOf 0]
      s.st = .poll ∧ s.ph = .one ∧ s.AnswersOk ∧ s.op = op := by
  intro op _
  exact ⟨rfl, rfl, ⟨rfl, rfl⟩, rfl⟩

/-- In either phase. -/
theorem witness_WrcmdSample :
    ∀ ph ∈ [Phase.one, Phase.two],
      let s := inside opWrcmd .poll ph [sampleOf 0]
      s.st = .poll ∧ s.op = opWrcmd ∧ s.AnswersOk := by
  intro ph _
  exact ⟨rfl, rfl, ⟨rfl, rfl⟩⟩

/-- At `Accept`, and after phase 1, with counts left over. -/
theorem witness_EveryPollEntryStartsFromZero :
    (let s := { offering wordWaitrd [] with rounds := 7, ffc := 3, prevIdle := true }
     step s = .next (after s) ∧ s.st ≠ .poll ∧ (after s).st = .poll) ∧
    (let s := { inside opWrcmd .ctl .one [answerOk 0] with rounds := 7, ffc := 3, prevIdle := true }
     step s = .next (after s) ∧ s.st ≠ .poll ∧ (after s).st = .poll) :=
  ⟨⟨rfl, by decide, rfl⟩, ⟨rfl, by decide, rfl⟩⟩

/-- The last sample of the budget: it confirms, and it does not. -/
theorem witness_WaitSucceedsExactlyOnSecondIdleSample :
    (let s := { inside opWaitrd .poll .one [sampleOf 2] with rounds := 19999, prevIdle := true }
     s.Inv ∧ s.host.rst = false ∧ s.st = .poll ∧ (s.op = opWaitrd ∨ s.op = opWaitwr) ∧
       s.AnswersOk ∧ step s = .next (after s) ∧ (after s).status = .ok) ∧
    (let s := { inside opWaitwr .poll .one [sampleOf 2] with rounds := 19999, prevIdle := true }
     s.Inv ∧ s.host.rst = false ∧ s.st = .poll ∧ (s.op = opWaitrd ∨ s.op = opWaitwr) ∧
       s.AnswersOk ∧ step s = .next (after s) ∧ (after s).status = .timeout) :=
  ⟨⟨inv_of_empty_trace _ rfl (by decide), rfl, rfl, .inl rfl, ⟨rfl, rfl⟩, rfl, rfl⟩,
   ⟨inv_of_empty_trace _ rfl (by decide), rfl, rfl, .inr rfl, ⟨rfl, rfl⟩, rfl, rfl⟩⟩

/-- The tenth all-ones sample on the last round; the ninth; a command that is not polling; and IDLE
after such an end. -/
theorem witness_UnresponsiveExactlyAtTheLimit :
    (let s := { inside opWrcmd .poll .two [sampleOf 0xFF] with rounds := 19999, ffc := 9 }
     s.Inv ∧ s.host.rst = false ∧ step s = .next (after s) ∧ s.st ≠ .idle ∧
       (after s).status = .deviceUnresponsive) ∧
    (let s := { inside opWrcmd .poll .two [sampleOf 0xFF] with rounds := 19998, ffc := 8 }
     s.Inv ∧ s.host.rst = false ∧ step s = .next (after s) ∧ s.st ≠ .idle ∧
       (after s).st = .poll) ∧
    (let s := inside opRdcmd .ack .one [answerFail]
     s.Inv ∧ s.host.rst = false ∧ step s = .next (after s) ∧ s.st ≠ .idle ∧
       (after s).st = .idle) ∧
    (let s := { State.reset with resValid := true, status := .deviceUnresponsive }
     s.Inv ∧ s.host.rst = false ∧ step s = .next (after s) ∧ s.st = .idle ∧
       (after s).resValid = true ∧ (after s).status = .deviceUnresponsive) :=
  ⟨⟨inv_of_empty_trace _ rfl (by decide), rfl, rfl, by decide, rfl⟩,
   ⟨inv_of_empty_trace _ rfl (by decide), rfl, rfl, by decide, rfl⟩,
   ⟨inv_of_empty_trace _ rfl (by decide), rfl, rfl, by decide, rfl⟩,
   ⟨inv_of_empty_trace _ rfl (by decide), rfl, rfl, rfl, rfl, rfl⟩⟩

/-- Not paired; paired with a round that this sample opens; paired with a round open before; a
command that is not polling; and IDLE after such an end. -/
theorem witness_TimeoutExactlyAtTheBudget :
    (let s := { inside opWaitrd .poll .one [sampleOf 1] with cfg := small 4 false, rounds := 3 }
     s.Inv ∧ s.host.rst = false ∧ step s = .next (after s) ∧ s.st ≠ .idle ∧
       (after s).status = .timeout) ∧
    (let s := { inside opWaitrd .poll .one [sampleOf 1] with cfg := small 4 true, rounds := 3 }
     s.Inv ∧ s.host.rst = false ∧ step s = .next (after s) ∧ s.st ≠ .idle ∧
       (after s).status = .timeout) ∧
    (let s := { inside opWaitrd .poll .one [sampleOf 1] with
       cfg := small 4 true, rounds := 4, prevIdle := true }
     s.Inv ∧ s.host.rst = false ∧ step s = .next (after s) ∧ s.st ≠ .idle ∧
       (after s).status = .timeout) ∧
    (let s := inside opIssuewr .ctl .one [answerOk 0]
     s.Inv ∧ s.host.rst = false ∧ step s = .next (after s) ∧ s.st ≠ .idle ∧
       (after s).st = .idle) ∧
    (let s := { State.reset with resValid := true, status := .timeout }
     s.Inv ∧ s.host.rst = false ∧ step s = .next (after s) ∧ s.st = .idle ∧
       (after s).resValid = true ∧ (after s).status = .timeout) :=
  ⟨⟨inv_of_empty_trace _ rfl (by decide), rfl, rfl, by decide, rfl⟩,
   ⟨inv_of_empty_trace _ rfl (by decide), rfl, rfl, by decide, rfl⟩,
   ⟨inv_of_empty_trace _ rfl (by decide), rfl, rfl, by decide, rfl⟩,
   ⟨inv_of_empty_trace _ rfl (by decide), rfl, rfl, by decide, rfl⟩,
   ⟨inv_of_empty_trace _ rfl (by decide), rfl, rfl, rfl, rfl, rfl⟩⟩

/-- The smallest budgets: 2 rounds, and 1 round with paired confirming. -/
theorem witness_WaitCompletesOnTwoIdleSamples :
    ∀ p ∈ [small 2 false, small 1 true],
      let s := { offering wordWaitwr [sampleOf 0xFD, sampleOf 1, noAnswer] with cfg := p }
      s.Offers (.waitwr dev3 0 0 0 0) ∧
        ((.waitwr dev3 0 0 0 0 : Instr).opcode = opWaitrd ∨
          (.waitwr dev3 0 0 0 0 : Instr).opcode = opWaitwr) ∧
        (0xFD : Byte) &&& busyMask s.cfg opWaitwr = 0 ∧
        (1 : Byte) &&& busyMask s.cfg opWaitwr = 0 ∧
        (2 ≤ s.cfg.pollBudget ∨ s.cfg.pairedConfirm = true) ∧
        s.env = sampleOf 0xFD :: sampleOf 1 :: [noAnswer] := by
  intro p h
  rcases List.mem_cons.mp h with rfl | h
  · exact ⟨⟨by decide, rfl, ⟨rfl, rfl⟩, rfl, rfl⟩, .inr rfl, rfl, rfl, .inl (by decide), rfl⟩
  · rcases List.mem_cons.mp h with rfl | h
    · exact ⟨⟨by decide, rfl, ⟨rfl, rfl⟩, rfl, rfl⟩, .inr rfl, rfl, rfl, .inr rfl, rfl⟩
    · cases h

/-- The limit equal to the budget. -/
theorem witness_AbsentDeviceEndsAtTheLimit :
    let s := { offering wordWaitrd [sampleOf 0xFF, sampleOf 0xFF] with cfg := small 2 false }
    s.Offers (.waitrd dev3 0 0 0 0) ∧
      ((.waitrd dev3 0 0 0 0 : Instr).opcode = opWaitrd ∨
        (.waitrd dev3 0 0 0 0 : Instr).opcode = opWaitwr) ∧
      s.cfg.ffLimit ≤ s.cfg.pollBudget ∧
      s.env = List.replicate s.cfg.ffLimit (sampleOf s.cfg.absentByte) ++ [] :=
  ⟨⟨by decide, rfl, ⟨rfl, rfl⟩, rfl, rfl⟩, .inl rfl, by decide, rfl⟩

theorem witness_StuckDeviceTimesOutAfterTheBudget :
    let s := { offering wordWaitrd [sampleOf 1, sampleOf 3, sampleOf 0xFD] with
      cfg := small 3 true }
    s.Offers (.waitrd dev3 0 0 0 0) ∧
      ((.waitrd dev3 0 0 0 0 : Instr).opcode = opWaitrd ∨
        (.waitrd dev3 0 0 0 0 : Instr).opcode = opWaitwr) ∧
      [(1 : Byte), 3, 0xFD].length = s.cfg.pollBudget ∧
      (∀ v ∈ [(1 : Byte), 3, 0xFD], v &&& busyMask s.cfg opWaitrd ≠ 0 ∧ v ≠ s.cfg.absentByte) ∧
      s.env = [(1 : Byte), 3, 0xFD].map sampleOf ++ [] :=
  ⟨⟨by decide, rfl, ⟨rfl, rfl⟩, rfl, rfl⟩, .inl rfl, rfl, by decide, rfl⟩

/-- Two states at an idle second sample, unpaired on round 1 and paired on round 0. -/
theorem witness_PairedConfirmOnlyMovesTimeout :
    let s1 := { inside opWaitrd .poll .one [sampleOf 0] with cfg := small 4 false, rounds := 1 }
    let s2 := { inside opWaitrd .poll .one [sampleOf 0] with cfg := small 4 true, rounds := 2 }
    s1.Inv ∧ s2.Inv ∧ s1.EqButPairing s2 ∧ step s1 = .next (after s1) ∧
      step s2 = .next (after s2) :=
  ⟨inv_of_empty_trace _ rfl (by decide), inv_of_empty_trace _ rfl (by decide), rfl, rfl, rfl⟩

/-- ISSUERD and ISSUEWR, in each of the three states. -/
theorem witness_IssueWrites :
    ∀ st ∈ [St.sel, St.dat, St.ctl],
      (let s := inside opIssuerd st .one [answerOk 0]
       s.op = (.issuerd dev3 1 2 0 0 : Instr).opcode ∧ s.ph = .one ∧ s.AnswersOk ∧ s.st = st) ∧
      (let s := inside opIssuewr st .one [answerOk 0]
       s.op = (.issuewr dev3 1 2 0 0 : Instr).opcode ∧ s.ph = .one ∧ s.AnswersOk ∧ s.st = st) := by
  intro st _
  exact ⟨⟨rfl, rfl, ⟨rfl, rfl⟩, rfl⟩, ⟨rfl, rfl, ⟨rfl, rfl⟩, rfl⟩⟩

theorem witness_IssueRunsToItsEnd :
    (let s := offering wordIssuerd [answerOk 1, answerOk 2, answerOk 3]
     s.Offers (.issuerd dev3 0x00030201 0 0 0) ∧
       s.env = answerOk 1 :: answerOk 2 :: answerOk 3 :: []) ∧
    (let s := offering wordIssuewr [answerOk 1, answerOk 2, answerOk 3]
     s.Offers (.issuewr dev3 0x10 0xAAAA 0 0) ∧
       s.env = answerOk 1 :: answerOk 2 :: answerOk 3 :: []) :=
  ⟨⟨⟨by decide, rfl, ⟨rfl, rfl⟩, rfl, rfl⟩, rfl⟩, ⟨⟨by decide, rfl, ⟨rfl, rfl⟩, rfl, rfl⟩, rfl⟩⟩

/-- In each state of each phase. -/
theorem witness_WrcmdWrites :
    ∀ st ∈ [St.sel, St.dat, St.ctl], ∀ ph ∈ [Phase.one, Phase.two],
      let s := inside opWrcmd st ph [answerOk 0]
      s.op = opWrcmd ∧ s.AnswersOk ∧ s.ph = ph ∧ s.st = st := by
  intro st _ ph _
  exact ⟨rfl, ⟨rfl, rfl⟩, rfl, rfl⟩

theorem witness_PhaseOneSelectorIsZeroExtended :
    let s := { inside opWrcmd .sel .one [] with reg := 0xFFFFFF }
    s.op = opWrcmd ∧ s.ph = .one ∧ s.st = .sel := by decide

theorem witness_RdcmdTransactions :
    ∀ st ∈ [St.rd1, St.rd2, St.ack],
      let s := inside opRdcmd st .one [answerOk 0x11223344]
      s.op = opRdcmd ∧ s.ph = .one ∧ s.AnswersOk ∧ s.st = st := by
  intro st _
  exact ⟨rfl, rfl, ⟨rfl, rfl⟩, rfl⟩

/-- V40. -/
theorem witness_RdcmdRunsToItsEnd :
    let s := offering wordRdcmd [answerOk 0x11223344, answerOk 0x55667788, answerOk 0]
    s.Offers (.rdcmd dev3 0 0 0 0) ∧
      s.env = answerOk 0x11223344 :: answerOk 0x55667788 :: answerOk 0 :: [] :=
  ⟨⟨by decide, rfl, ⟨rfl, rfl⟩, rfl, rfl⟩, rfl⟩

/-- V70; the smallest budget. -/
theorem witness_WrcmdRunsToItsEnd :
    let s := { offering wordWrcmd tenAnswers with cfg := small 2 false }
    s.Offers theWrcmd ∧ (∀ u ∈ [(0 : Byte), 0, 0, 0], u &&& s.cfg.writeBusy = 0) ∧
      (2 ≤ s.cfg.pollBudget ∨ s.cfg.pairedConfirm = true) ∧ s.env = tenAnswers :=
  ⟨⟨by decide, rfl, ⟨rfl, rfl⟩, rfl, rfl⟩, by decide, .inl (by decide), rfl⟩

set_option maxRecDepth 10000 in
theorem witness_OkWrcmdWritesExactlySix :
    let s := offering wordWrcmd tenAnswers
    s.Offers theWrcmd ∧ 0 < 11 ∧ Host.Core.run Sys2Proof.core 11 s = .next (afterN 11 s) ∧
      (afterN 11 s).st = .idle ∧ (afterN 11 s).resValid = true ∧ (afterN 11 s).status = .ok :=
  ⟨⟨by decide, rfl, ⟨rfl, rfl⟩, rfl, rfl⟩, by decide, rfl, rfl, rfl, rfl⟩

set_option maxRecDepth 10000 in
/-- It ends in the first poll, in the second poll (the partial write), at the second trigger, and
with OK. -/
theorem witness_FailedWrcmdIsAnExactFirstPart :
    (let s := { offering wordWrcmd [sampleOf 2, sampleOf 2] with cfg := small 2 false }
     s.Offers theWrcmd ∧ Host.Core.run Sys2Proof.core 3 s = .next (afterN 3 s) ∧
       (afterN 3 s).st = .idle ∧ (afterN 3 s).status = .timeout ∧ (afterN 3 s).issued = 0) ∧
    (let s := { offering wordWrcmd (tenAnswers.take 5 ++ [sampleOf 0xFF, sampleOf 0xFF]) with
       cfg := small 2 false }
     s.Offers theWrcmd ∧ Host.Core.run Sys2Proof.core 8 s = .next (afterN 8 s) ∧
       (afterN 8 s).st = .idle ∧ (afterN 8 s).status = .deviceUnresponsive ∧
       (afterN 8 s).issued = 1) ∧
    (let s := offering wordWrcmd (tenAnswers.take 9 ++ [answerFail])
     s.Offers theWrcmd ∧ Host.Core.run Sys2Proof.core 11 s = .next (afterN 11 s) ∧
       (afterN 11 s).st = .idle ∧ (afterN 11 s).status = .accessFailure ∧
       (afterN 11 s).issued = 1) ∧
    (let s := offering wordWrcmd tenAnswers
     s.Offers theWrcmd ∧ Host.Core.run Sys2Proof.core 11 s = .next (afterN 11 s) ∧
       (afterN 11 s).st = .idle ∧ (afterN 11 s).status = .ok ∧ (afterN 11 s).issued = 2) :=
  ⟨⟨⟨by decide, rfl, ⟨rfl, rfl⟩, rfl, rfl⟩, rfl, rfl, rfl, rfl⟩,
   ⟨⟨by decide, rfl, ⟨rfl, rfl⟩, rfl, rfl⟩, rfl, rfl, rfl, rfl⟩,
   ⟨⟨by decide, rfl, ⟨rfl, rfl⟩, rfl, rfl⟩, rfl, rfl, rfl, rfl⟩,
   ⟨⟨by decide, rfl, ⟨rfl, rfl⟩, rfl, rfl⟩, rfl, rfl, rfl, rfl⟩⟩

set_option maxRecDepth 10000 in
/-- Polls that need three samples and four: busy first, and one idle sample that does not last. -/
theorem witness_ComposedWriteHasTheTraceOfWrcmd :
    let l1 : List Byte := [2, 0, 0xFD]
    let l2 : List Byte := [0, 2, 0, 0]
    let s := offering wordWrcmd (l1.map sampleOf ++ answerOk 0 :: answerOk 0 :: answerOk 0 ::
      (l2.map sampleOf ++ answerOk 0 :: answerOk 0 :: answerOk 0 :: []))
    let t := afterN 14 s
    s.Offers theWrcmd ∧
      Host.Core.run Sys2Proof.core (l1.length + l2.length + 7) s = .next t ∧
      t.trace = s.trace ++ l1.map (sampleEntry s.cfg dev3.bits) ++
        (issueWrites s.cfg dev3.bits ((internalRegisterNumber 0x10 0 0).setWidth 32) 0xAAAA
          s.cfg.writeBusy).map doneWrite ++
        l2.map (sampleEntry s.cfg dev3.bits) ++
        (issueWrites s.cfg dev3.bits 0x20 0xBBBB s.cfg.writeBusy).map doneWrite :=
  ⟨⟨by decide, rfl, ⟨rfl, rfl⟩, rfl, rfl⟩, rfl, rfl⟩

/-- A failed sample, a failed read and a failed trigger. -/
theorem witness_FailedTransactionEndsTheCommand :
    ∀ x ∈ [(opWaitrd, St.poll), (opRdcmd, .rd1), (opIssuewr, .ctl)],
      let s := inside x.1 x.2 .one [answerFail]
      s.cfg.wellFormed = true ∧ s.host.rst = false ∧ s.request.isSome = true ∧
        s.accPort.done = true ∧ s.accPort.fail = true := by decide

/-- A command in progress, and one that completes. -/
theorem witness_CompletionSetsTheResult :
    (let s := inside opRdcmd .rd1 .one [answerOk 0]
     s.Inv ∧ step s = .next (after s) ∧ s.host.rst = false ∧ s.st ≠ .idle ∧
       (after s).st ≠ .idle) ∧
    (let s := inside opRdcmd .ack .one [answerOk 0]
     s.Inv ∧ step s = .next (after s) ∧ s.host.rst = false ∧ s.st ≠ .idle ∧
       (after s).st = .idle) :=
  ⟨⟨inv_of_empty_trace _ rfl (by decide), rfl, rfl, by decide, by decide⟩,
   ⟨inv_of_empty_trace _ rfl (by decide), rfl, rfl, by decide, rfl⟩⟩

/-- A result with data words, and one without. -/
theorem witness_DataOnlyAfterSuccessfulRdcmd :
    { State.reset with op := opRdcmd, resValid := true, d1 := 1, d2 := 2 }.result =
      some ⟨.ok, 0, some (1, 2)⟩ ∧
    { State.reset with op := opRdcmd, resValid := true, status := .accessFailure }.result =
      some ⟨.accessFailure, 0, none⟩ := by decide

/-- RD1 writes word 1, RD2 writes word 2. -/
theorem witness_OnlyRdcmdWritesTheResultLatches :
    (let s := inside opRdcmd .rd1 .one [answerOk 7]
     step s = .next (after s) ∧ s.host.rst = false ∧ (after s).d1 ≠ s.d1) ∧
    (let s := inside opRdcmd .rd2 .one [answerOk 7]
     step s = .next (after s) ∧ s.host.rst = false ∧ (after s).d2 ≠ s.d2) :=
  ⟨⟨rfl, rfl, by decide⟩, ⟨rfl, rfl, by decide⟩⟩

/-- At a trigger, and at `Accept` after a command that issued. -/
theorem witness_IssuedCountsAnsweredTriggers :
    (let s := inside opWrcmd .ctl .two [answerOk 0]
     step s = .next (after s) ∧ s.host.rst = false ∧ (after s).issued ≠ s.issued) ∧
    (let s := { offering wordRdcmd [] with issued := 2 }
     step s = .next (after s) ∧ s.host.rst = false ∧ (after s).issued ≠ s.issued) :=
  ⟨⟨rfl, rfl, by decide⟩, ⟨rfl, rfl, by decide⟩⟩

/-- Each state, with a command that has it. -/
theorem witness_EnabledTransactionOfEachState :
    ∀ x ∈ [(opWrcmd, St.idle), (opWaitrd, .poll), (opIssuerd, .sel), (opIssuewr, .dat),
        (opIssuerd, .ctl), (opWrcmd, .ctl), (opRdcmd, .rd1), (opRdcmd, .rd2), (opRdcmd, .ack)],
      pcLegal x.1 x.2 .one = true := by decide

theorem witness_RequestsStayInTheRegisterMap :
    (inside opWrcmd .sel .one []).request = some (.write .word 0x0300 0xF8 0x10) := by decide

/-- A read, and an 8-bit write. -/
theorem witness_PortsShowTheRequest :
    (inside opWaitrd .poll .one []).request = some (.read .byte 0x0300 0xE0) ∧
    (inside opRdcmd .ack .one []).request = some (.write .byte 0x0300 0xE0 0x01) := by decide

/-- Answered, failed, and not answered. -/
theorem witness_StepRecordsTheEnabledTransaction :
    ∀ p ∈ [answerOk 0, answerFail, noAnswer],
      let s := inside opRdcmd .rd1 .one [p]
      ∃ t, step s = .next t := by
  intro p h
  rcases List.mem_cons.mp h with rfl | h
  · exact ⟨_, rfl⟩
  · rcases List.mem_cons.mp h with rfl | h
    · exact ⟨_, rfl⟩
    · rcases List.mem_cons.mp h with rfl | h
      · exact ⟨_, rfl⟩
      · cases h

theorem witness_LatchesChangeOnlyAtAccept :
    let s := inside opWrcmd .ctl .one [answerOk 0]
    step s = .next (after s) ∧ s.host.rst = false ∧ (s.st ≠ .idle ∨ s.host.cmdValid = false) :=
  ⟨rfl, rfl, .inl (by decide)⟩

/-- A write and a byte outside it; no transaction; no answer; a read. -/
theorem witness_OnlyStoredBytesChange :
    (let s := inside opWrcmd .sel .one [answerOk 0]
     step s = .next (after s) ∧ s.request = some (.write .word 0x0300 0xF8 0x10) ∧
       ∀ c ∈ Request.cells (.write .word 0x0300 0xF8 0x10), c.1 ≠ 0x0300FC) ∧
    (step State.reset = .next (after State.reset) ∧ State.reset.request = none) ∧
    (let s := inside opWrcmd .sel .one [noAnswer]
     step s = .next (after s) ∧ s.host.rst = false ∧ s.accPort.done = false) ∧
    (let s := inside opRdcmd .rd1 .one [answerOk 0]
     step s = .next (after s) ∧ s.request = some (.read .word 0x0300 0xF0)) :=
  ⟨⟨rfl, rfl, by decide⟩, ⟨rfl, rfl⟩, ⟨rfl, rfl, rfl⟩, ⟨rfl, rfl⟩⟩

/-- The last aligned word of a function's space, and the control byte. -/
theorem witness_AnsweredWriteStoresItsBytes :
    (let s := inside opWrcmd .dat .one [answerOk 0]
     step s = .next (after s) ∧ s.host.rst = false ∧ s.AnswersOk ∧
       s.request = some (.write .word 0x0300 0xFC 0xAAAA) ∧ (0xFC : Byte).toNat + 3 < 256) ∧
    (let s := inside opWrcmd .ctl .one [answerOk 0]
     step s = .next (after s) ∧ s.host.rst = false ∧ s.AnswersOk ∧
       s.request = some (.write .byte 0x0300 0xE0 0x02)) :=
  ⟨⟨rfl, rfl, ⟨rfl, rfl⟩, rfl, by decide⟩, ⟨rfl, rfl, ⟨rfl, rfl⟩, rfl⟩⟩

/-- A failed write that reached the device. -/
theorem witness_FailedWriteLeavesBothOutcomes :
    let s := inside opWrcmd .ctl .one [⟨true, true, 0, true⟩]
    s.host.rst = false ∧ s.request = some (.write .byte 0x0300 0xE0 0x02) ∧
      s.env = (⟨true, true, 0, true⟩ : AccPort) :: [] ∧ step s = .next (after s) ∧
      (after s).written ≠ s.written := ⟨rfl, rfl, rfl, rfl, by decide⟩

theorem witness_UnansweredTransactionWaits :
    let s := inside opWrcmd .ctl .one [noAnswer]
    s.Inv ∧ s.host.rst = false ∧ s.st ≠ .idle ∧ s.accPort.done = false :=
  ⟨inv_of_empty_trace _ rfl (by decide), rfl, by decide, rfl⟩

/-- A WAITRD with every ignored latch different, and an ISSUERD. -/
theorem witness_IgnoredFieldsHaveNoEffect :
    (let s1 := inside opWaitrd .poll .one [sampleOf 0]
     let s2 := { s1 with reg := 1, a := 2, b := 3, c := 4 }
     s1.st ≠ .idle ∧ s1.op ∈ definedOpcodes ∧ s1.maskIgnored = s2.maskIgnored ∧
       step s1 = .next (after s1)) ∧
    (let s1 := inside opIssuerd .sel .one [answerOk 0]
     let s2 := { s1 with reg := 1, c := 4 }
     s1.st ≠ .idle ∧ s1.op ∈ definedOpcodes ∧ s1.maskIgnored = s2.maskIgnored ∧
       step s1 = .next (after s1)) :=
  ⟨⟨by decide, by decide, rfl, rfl⟩, ⟨by decide, by decide, rfl, rfl⟩⟩

/-- A fresh block, and one with another command behind it. -/
theorem witness_NothingCarriesOverToTheNextCommand :
    let s1 := offering wordWrcmd []
    let s2 := { s1 with
      op := opRdcmd, addr := 0xFFFF, a := 7, d1 := 1, rounds := 9, ffc := 3, prevIdle := true,
      resValid := true, status := .accessFailure, issued := 1 }
    s1.Offers theWrcmd ∧ s2.st = .idle ∧ s1.cfg = s2.cfg ∧ s1.host = s2.host ∧
      s1.hostNext = s2.hostNext ∧ s1.env = s2.env ∧ s1.draws = s2.draws ∧ s1.trace = s2.trace ∧
      s1.written = s2.written ∧ step s1 = .next (after s1) :=
  ⟨⟨by decide, rfl, ⟨rfl, rfl⟩, rfl, rfl⟩, rfl, rfl, rfl, rfl, rfl, rfl, rfl, rfl, rfl⟩

/-- A state in a command at the edge of its counters. -/
theorem witness_EveryStepKeepsTheInvariant :
    let s := { inside opWrcmd .poll .two [sampleOf 0xFF] with rounds := 19999, ffc := 9 }
    s.Inv ∧ step s = .next (after s) :=
  ⟨inv_of_empty_trace _ rfl (by decide), rfl⟩

theorem witness_StepIsNeverStuck : (inside opWrcmd .ctl .two []).Inv :=
  inv_of_empty_trace _ rfl (by decide)

theorem witness_AcceptSetsTheTransactionBound :
    let s := offering wordWrcmd []
    s.st = .idle ∧ exec theWrcmd s = .next (after s) := ⟨rfl, rfl⟩

/-- An answer that ends the command, and one that does not. -/
theorem witness_EveryAnswerReducesTheBound :
    ∀ st ∈ [St.rd1, St.ack],
      let s := inside opRdcmd st .one [answerOk 0]
      s.Inv ∧ s.host.rst = false ∧ s.st ≠ .idle ∧ s.accPort.done = true ∧
        step s = .next (after s) := by
  intro st h
  rcases List.mem_cons.mp h with rfl | h
  · exact ⟨inv_of_empty_trace _ rfl (by decide), rfl, by decide, rfl, rfl⟩
  · rcases List.mem_cons.mp h with rfl | h
    · exact ⟨inv_of_empty_trace _ rfl (by decide), rfl, by decide, rfl, rfl⟩
    · cases h

/-- A WRCMD whose bound is just met by the answers there are. -/
theorem witness_EveryCommandEndsWithinItsBound :
    let s := { offering wordWrcmd tenAnswers with cfg := small 2 false }
    s.Inv ∧ s.Offers theWrcmd ∧ mostTransactions s.cfg theWrcmd = s.env.length ∧
      ∀ p ∈ s.env, p.done = true :=
  ⟨inv_of_empty_trace _ rfl (by decide), ⟨by decide, rfl, ⟨rfl, rfl⟩, rfl, rfl⟩, rfl, by decide⟩

end Sys2Proof.Tests
end

section
/-! PROOFS. The parameter constraints of 00_scope.md R5: what each check of a record says, and what
a step answers under a record that fails one. -/

namespace Sys2Proof

open Config Machine

/-! ## Each check of R5 -/

/-- The eight bytes that the check lists are the eight shifts of 1. -/
theorem singleBit_iff_shift (v : Byte) :
    singleBit v = true ↔ ∃ k, k < 8 ∧ v = (1 : Byte) <<< k := by
  constructor
  · intro h
    have hmem : v ∈ [0x01, 0x02, 0x04, 0x08, 0x10, 0x20, 0x40, 0x80] := List.contains_iff_mem.mp h
    simp only [List.mem_cons, List.not_mem_nil, or_false] at hmem
    obtain rfl | rfl | rfl | rfl | rfl | rfl | rfl | rfl := hmem
    exacts [⟨0, by decide⟩, ⟨1, by decide⟩, ⟨2, by decide⟩, ⟨3, by decide⟩, ⟨4, by decide⟩,
      ⟨5, by decide⟩, ⟨6, by decide⟩, ⟨7, by decide⟩]
  · rintro ⟨k, hk, rfl⟩
    revert k
    decide

theorem Config.Params.budgetOk_iff (p : Params) :
    p.budgetOk = true ↔ 1 ≤ p.pollBudget ∧ p.pollBudget < 2 ^ p.roundsW := decide_eq_true_iff

theorem Config.Params.limitOk_iff (p : Params) :
    p.limitOk = true ↔ 1 ≤ p.ffLimit ∧ p.ffLimit < 2 ^ p.ffcW := decide_eq_true_iff

theorem Config.Params.offsetsDistinct_iff (p : Params) :
    p.offsetsDistinct = true ↔
      [p.ctrlOff, p.dout1Off, p.dout2Off, p.selOff, p.dinOff].Nodup := decide_eq_true_iff

theorem Config.Params.offsetsAligned_iff (p : Params) :
    p.offsetsAligned = true ↔
      ∀ o ∈ [p.dout1Off, p.dout2Off, p.selOff, p.dinOff], 4 ∣ o.toNat := by
  simp only [offsetsAligned, List.all_eq_true, decide_eq_true_iff, Nat.dvd_iff_mod_eq_zero]

theorem Config.Params.flagsOk_iff (p : Params) :
    p.flagsOk = true ↔
      (∃ k, k < 8 ∧ p.readBusy = (1 : Byte) <<< k) ∧
      (∃ k, k < 8 ∧ p.writeBusy = (1 : Byte) <<< k) ∧ p.readBusy ≠ p.writeBusy := by
  simp only [flagsOk, Bool.and_eq_true, singleBit_iff_shift, decide_eq_true_iff, and_assoc]

theorem Config.Params.absentBusy_iff (p : Params) :
    p.absentBusy = true ↔
      p.absentByte &&& p.readBusy ≠ 0 ∧ p.absentByte &&& p.writeBusy ≠ 0 := by
  simp only [absentBusy, Bool.and_eq_true, decide_eq_true_iff]

theorem Config.Params.constraintsOk_iff (p : Params) :
    p.constraintsOk = true ↔
      p.budgetOk = true ∧ p.limitOk = true ∧ p.offsetsDistinct = true ∧
      p.offsetsAligned = true ∧ p.flagsOk = true ∧ p.absentBusy = true := by
  simp only [constraintsOk, Bool.and_eq_true, and_assoc]

/-- The value column of R4 meets every constraint. -/
theorem Config.Params.hardware_constraintsOk : Params.hardware.constraintsOk = true := by decide

/-! ## The refusal -/

theorem Machine.step_badConfiguration (s : State) (h : s.cfg.constraintsOk = false) :
    step s = .refused .badConfiguration := by
  have hwf : s.cfg.wellFormed = false := by simp [Params.wellFormed, h]
  simp [step, hwf, h]

/-- Settles O14: check by check; that an offset is below 0x100 holds by its type. -/
theorem badConfigurationIsRefused : Obligations.BadConfigurationIsRefused := by
  refine ⟨fun p => ?_, Params.hardware_constraintsOk, step_badConfiguration⟩
  have below : ∀ o ∈ [p.ctrlOff, p.dout1Off, p.dout2Off, p.selOff, p.dinOff],
      o.toNat < 0x100 := fun o _ => o.isLt
  rw [p.constraintsOk_iff, p.budgetOk_iff, p.limitOk_iff, p.offsetsDistinct_iff,
    p.offsetsAligned_iff, p.flagsOk_iff, p.absentBusy_iff]
  constructor
  · rintro ⟨budget, limit, distinct, aligned, flags, absent⟩
    exact ⟨budget, limit, distinct, aligned, below, flags, absent⟩
  · rintro ⟨budget, limit, distinct, aligned, -, flags, absent⟩
    exact ⟨budget, limit, distinct, aligned, flags, absent⟩

end Sys2Proof
end

section
/-! PROOFS. `Accept` of a reserved opcode (30_encoding.md R56): how many opcodes are reserved, and
what the one step of such a command leaves behind. -/

namespace Sys2Proof

open Config Machine

/-! ## Counting the reserved opcodes -/

/-- Among the 256 numbers of an 8-bit field, those of a defined opcode are the six of R52, each
once. -/
theorem definedOpcodes_numbers_perm :
    ((List.range 256).filter fun n => definedOpcodes.contains (BitVec.ofNat 8 n)).Perm
      (definedOpcodes.map BitVec.toNat) := by
  refine (List.perm_ext_iff_of_nodup (List.nodup_range.filter _) (by decide)).mpr fun n => ?_
  simp only [List.mem_filter, List.mem_range, List.contains_iff_mem, List.mem_map]
  constructor
  · rintro ⟨below, defined⟩
    exact ⟨_, defined, Nat.mod_eq_of_lt below⟩
  · rintro ⟨op, defined, rfl⟩
    exact ⟨op.isLt, by rwa [BitVec.ofNat_toNat, BitVec.setWidth_eq]⟩

/-- R56: 256 numbers less the six defined ones. -/
theorem reservedOpcodes_length :
    ((List.range 256).filter fun n => !definedOpcodes.contains (BitVec.ofNat 8 n)).length =
      250 := by
  have defined : ((List.range 256).filter fun n =>
      definedOpcodes.contains (BitVec.ofNat 8 n)).length = 6 := definedOpcodes_numbers_perm.length_eq
  have total := List.length_eq_length_filter_add (l := List.range 256)
    fun n => definedOpcodes.contains (BitVec.ofNat 8 n)
  rw [List.length_range, defined] at total
  omega

/-! ## The step -/

/-- Settles O11: the step is `State.acceptIllegal`, which raises IllegalCommand on top of the
`Accept` that every command makes. The raise sets `status`, `res_valid` and IDLE; `Accept` clears
`issued`; neither touches the environment, the trace, the bytes written or the result latches. -/
theorem reservedOpcodeEndsWithIllegalCommand :
    Obligations.ReservedOpcodeEndsWithIllegalCommand := by
  refine ⟨reservedOpcodes_length, fun s hcfg hidle hrst hvalid hop => ?_⟩
  refine ⟨_, step_illegal s hcfg hrst hidle hvalid hop, ?_⟩
  simp [State.acceptIllegal, Cause.status]

end Sys2Proof
end

section
/-! PROOFS. Poll entry (40_poller.md R73): which moves of the sequencer end in POLL, and the counts
that a poll starts with. -/

namespace Sys2Proof

open Config Machine

namespace Machine

/-- The counts of R73 at a poll entry. -/
def State.FreshCounts (s : State) : Prop := s.rounds = 0 ∧ s.ffc = 0 ∧ s.prevIdle = false

theorem State.enterPoll_freshCounts (s : State) : (State.enterPoll s).FreshCounts :=
  ⟨s.enterPoll_rounds, s.enterPoll_ffc, s.enterPoll_prevIdle⟩

/-- Where the first state of a command is POLL, `Accept` went through poll entry. -/
theorem State.acceptCommand_freshCounts (i : Instr) (s : State)
    (h : (State.acceptCommand i s).st = .poll) : (State.acceptCommand i s).FreshCounts := by
  cases i with
  | waitrd | waitwr | wrcmd => exact State.enterPoll_freshCounts _
  | issuerd | issuewr | rdcmd => simp [State.acceptCommand] at h

/-- An issue of WRCMD ends in POLL only after phase 1, through poll entry (R102). -/
theorem State.phaseEnds_freshCounts (s : State) (h : (State.phaseEnds s).st = .poll) :
    (State.phaseEnds s).FreshCounts := by
  cases hph : s.ph with
  | one => simpa only [State.phaseEnds, hph] using State.enterPoll_freshCounts _
  | two => simp [State.phaseEnds, hph] at h

/-- An answer outside POLL leads into POLL only where the first trigger of a WRCMD ends its
issue. -/
theorem State.onAnswer_freshCounts (op : Byte) (x : St) (v : Word) (t : State)
    (hidle : x ≠ .idle) (hpoll : x ≠ .poll) (h : (State.onAnswer op x v t).st = .poll) :
    (State.onAnswer op x v t).FreshCounts := by
  cases x with
  | idle => exact absurd rfl hidle
  | poll => exact absurd rfl hpoll
  | sel | dat | rd1 | rd2 | ack => simp [State.onAnswer] at h
  | ctl =>
    by_cases hop : op = opWrcmd
    · simp only [State.onAnswer, if_pos hop] at h ⊢
      exact State.phaseEnds_freshCounts _ h
    · simp [State.onAnswer, hop] at h

end Machine

/-- Settles O20: `Reset`, a raise and `Accept` of a reserved word end in IDLE, the two waits leave
`st` as it is, and the two steps that are left go through poll entry. -/
theorem everyPollEntryStartsFromZero : Obligations.EveryPollEntryStartsFromZero := by
  intro s t hstep hfrom hto
  obtain ⟨-, ⟨-, reset⟩ | ⟨-, ⟨-, -, wait⟩ | ⟨-, -, -, reserved⟩ | ⟨-, -, i, -, accept⟩ |
    ⟨hbusy, -, req, -, ⟨-, pending⟩ | ⟨-, -, failed⟩ | ⟨-, -, answered⟩⟩⟩⟩ := step_cases s t hstep
  · simp [reset] at hto
  · exact absurd (by simpa [wait] using hto) hfrom
  · simp [reserved, State.acceptIllegal] at hto
  · subst accept
    exact State.acceptCommand_freshCounts i s hto
  · exact absurd (by simpa [pending] using hto) hfrom
  · simp [failed] at hto
  · subst answered
    exact State.onAnswer_freshCounts _ _ _ _ hbusy hfrom hto

end Sys2Proof
end

section
/-! PROOFS. The InternalRegisterNumber (42_sequences.md R100): its value, the document's two formulas,
and the bytes it is read back as. -/

namespace Sys2Proof

open Config

section

variable (b0 b1 b2 : Byte)

/-- Each byte stands at its own power of 256. -/
theorem internalRegisterNumber_toNat :
    (internalRegisterNumber b0 b1 b2).toNat = b0.toNat + b1.toNat * 256 + b2.toNat * 65536 := by
  have append_toNat {m : Nat} (x : BitVec m) (y : Byte) :
      (x ++ y).toNat = x.toNat * 256 + y.toNat := by
    rw [BitVec.toNat_append, ← Nat.shiftLeft_add_eq_or_of_lt y.isLt, Nat.shiftLeft_eq]
  rw [internalRegisterNumber, append_toNat, append_toNat]
  omega

/-- The document's first formula: the three bytes occupy disjoint bit ranges. -/
theorem internalRegisterNumber_eq_or :
    internalRegisterNumber b0 b1 b2 =
      (b0.setWidth 24 ||| (b1.setWidth 24 <<< 8) ||| (b2.setWidth 24 <<< 16)) := by
  refine BitVec.eq_of_getLsbD_eq fun i hi => ?_
  have hi : i < 24 := hi
  simp only [internalRegisterNumber, BitVec.getLsbD_append, BitVec.getLsbD_or,
    BitVec.getLsbD_shiftLeft, BitVec.getLsbD_setWidth]
  by_cases low : i < 8
  · simp [low, hi, show i < 16 by omega]
  · have above : b0.getLsbD i = false := BitVec.getLsbD_of_ge b0 i (by omega)
    by_cases mid : i < 16
    · simp [low, mid, hi, above, show i - 8 < 8 by omega, show i - 8 < 24 by omega]
    · have above' : b1.getLsbD (i - 8) = false := BitVec.getLsbD_of_ge b1 _ (by omega)
      simp [low, mid, hi, above, above', show ¬ i - 8 < 8 by omega,
        show i - 16 < 24 by omega, Nat.sub_sub]

/-- A byte in a 24-bit vector, shifted to its place, loses no bit. -/
theorem setWidth_shiftLeft_toNat (b : Byte) (k : Nat) (hk : k ≤ 16) :
    (b.setWidth 24 <<< k).toNat = b.toNat * 2 ^ k := by
  have fits : b.toNat * 2 ^ k < 2 ^ 8 * 2 ^ 16 :=
    Nat.mul_lt_mul_of_lt_of_le b.isLt (Nat.pow_le_pow_right (by decide) hk) (by decide)
  rw [BitVec.toNat_shiftLeft, BitVec.toNat_setWidth_of_le (by decide), Nat.shiftLeft_eq]
  exact Nat.mod_eq_of_lt fits

/-- The document's second formula: the sum has no carry out of the 24 bits. -/
theorem internalRegisterNumber_eq_add :
    internalRegisterNumber b0 b1 b2 =
      b0.setWidth 24 + (b1.setWidth 24 <<< 8) + (b2.setWidth 24 <<< 16) := by
  have h0 : (b0.setWidth 24).toNat = b0.toNat := BitVec.toNat_setWidth_of_le (by decide)
  have h1 := setWidth_shiftLeft_toNat b1 8 (by decide)
  have h2 := setWidth_shiftLeft_toNat b2 16 (by decide)
  refine BitVec.eq_of_toNat_eq ?_
  rw [internalRegisterNumber_toNat, BitVec.toNat_add, BitVec.toNat_add, h0, h1, h2, REG_W]
  omega

end

theorem internalRegisterNumber_injective {b0 b1 b2 c0 c1 c2 : Byte}
    (h : internalRegisterNumber b0 b1 b2 = internalRegisterNumber c0 c1 c2) :
    b0 = c0 ∧ b1 = c1 ∧ b2 = c2 := by
  have value := congrArg BitVec.toNat h
  rw [internalRegisterNumber_toNat, internalRegisterNumber_toNat] at value
  refine ⟨BitVec.eq_of_toNat_eq ?_, BitVec.eq_of_toNat_eq ?_, BitVec.eq_of_toNat_eq ?_⟩ <;> omega

/-- The register number of three adjacent bytes is the 24-bit field they make up. -/
theorem internalRegisterNumber_extractLsb' {w : Nat} (x : BitVec w) (k : Nat) :
    internalRegisterNumber (x.extractLsb' k 8) (x.extractLsb' (k + 8) 8)
      (x.extractLsb' (k + 8 + 8) 8) = x.extractLsb' k 24 := by
  rw [internalRegisterNumber, BitVec.extractLsb'_append_extractLsb'_eq_extractLsb' rfl]
  exact BitVec.extractLsb'_append_extractLsb'_eq_extractLsb' rfl

/-- Settles O5: the range and the field `reg` both come from reading three adjacent bytes back. -/
theorem internalRegisterNumberFormulas : Obligations.InternalRegisterNumberFormulas := by
  refine ⟨fun b0 b1 b2 => ⟨rfl, internalRegisterNumber_eq_or b0 b1 b2,
      internalRegisterNumber_eq_add b0 b1 b2, internalRegisterNumber_toNat b0 b1 b2⟩,
    fun _ _ _ _ _ _ => internalRegisterNumber_injective, fun r => ?_,
    by decide, by decide, by decide, by decide, by decide, fun cw => ?_⟩
  · exact ⟨_, _, _, (internalRegisterNumber_extractLsb' r 0).trans BitVec.extractLsb'_eq_self⟩
  · exact (internalRegisterNumber_extractLsb' cw 96).symm

end Sys2Proof
end

section
/-! PROOFS. The six writes of WRCMD (42_sequences.md R101, R102, R105): what an issue of each phase
writes, the traces that a WRCMD in progress can have, and the run that ends with OK. -/

namespace Sys2Proof

open Config Machine

namespace Machine

/-! ## The writes of a phase -/

/-- The three writes of one phase of the WRCMD with the command word `cw`. -/
def phaseWrites (p : Params) (cw : CmdWord) : Phase → List Request
  | .one => issueWrites p (addrField cw) ((regField cw).setWidth 32) (aField cw) p.writeBusy
  | .two => issueWrites p (addrField cw) (bField cw) (cField cw) p.writeBusy

/-- How many writes of its phase a WRCMD has made when it is at a sequencer state. -/
def writesMade : St → Nat
  | .dat => 1
  | .ctl => 2
  | _ => 0

theorem pcLegal_wrcmd_iff (st : St) (ph : Phase) :
    pcLegal opWrcmd st ph = true ↔
      st = .idle ∨ st = .poll ∨ st = .sel ∨ st = .dat ∨ st = .ctl := by
  cases st <;> simp [pcLegal, opWrcmd, opIssuerd, opIssuewr, opRdcmd]

theorem okReply_phaseWrites {p : Params} {cw : CmdWord} {ph : Phase} {r : Request}
    (h : r ∈ phaseWrites p cw ph) (v : Word) : r.okReply v = .done := by
  cases ph <;>
    simp only [phaseWrites, issueWrites, List.mem_cons, List.not_mem_nil, or_false] at h <;>
    obtain rfl | rfl | rfl := h <;> rfl

section

variable (s : State) (hop : s.op = opWrcmd)
include hop

theorem State.selector_wrcmd_one (hph : s.ph = .one) : s.selector = s.reg.setWidth 32 := by
  simp [State.selector, hop, hph]

/-- In POLL a WRCMD samples the control byte. -/
theorem State.request_wrcmd_poll (hst : s.st = .poll) :
    s.request = some (.read .byte s.addr s.cfg.ctrlOff) := by
  rw [s.request_legal (by simp [hop, hst, pcLegal_wrcmd_iff]), hst]

/-- In SEL, DAT and CTL a WRCMD makes the next write of its phase. -/
theorem State.request_wrcmd_write (hst : s.st = .sel ∨ s.st = .dat ∨ s.st = .ctl) :
    s.request = (phaseWrites s.cfg s.latchedWord s.ph)[writesMade s.st]? := by
  rw [s.request_legal (by rw [hop, pcLegal_wrcmd_iff]; tauto)]
  obtain hst | hst | hst := hst <;> cases hph : s.ph <;>
    simp [hst, hph, hop, phaseWrites, writesMade, issueWrites, State.latchedWord,
      State.selector, State.dataWord, triggerFlag, opWrcmd, opIssuerd]

end

/-- A 24-bit value has no bits above 23. -/
theorem extractLsb'_above_reg (r : BitVec REG_W) : r.extractLsb' 24 8 = 0 := by
  refine BitVec.eq_of_toNat_eq ?_
  rw [BitVec.extractLsb'_toNat, Nat.shiftRight_eq_zero r.toNat 24 r.isLt]
  rfl

/-! ## The traces of a WRCMD -/

section

variable (p : Params) (cw : CmdWord)

/-- `tr` is `before`, then samples, then the first `k` writes of the phase `ph`. -/
def PhaseTrace (ph : Phase) (before : List Transaction) (k : Nat) (tr : List Transaction) : Prop :=
  ∃ l : List Byte, tr = before ++ l.map (sampleEntry p (addrField cw)) ++
    ((phaseWrites p cw ph).take k).map doneWrite

/-- `tr` is what the WRCMD `cw`, accepted after the trace `start`, has made when it has made `k`
writes of the phase it is in. -/
def WrcmdTrace (start : List Transaction) (ph : Phase) (k : Nat) (tr : List Transaction) : Prop :=
  match ph with
  | .one => PhaseTrace p cw .one start k tr
  | .two => ∃ mid, PhaseTrace p cw .one start 3 mid ∧ PhaseTrace p cw .two mid k tr

variable {p cw} {ph : Phase} {start before tr : List Transaction} {k : Nat}

theorem PhaseTrace.refl (tr : List Transaction) : PhaseTrace p cw ph tr 0 tr := ⟨[], by simp⟩

theorem PhaseTrace.sample (h : PhaseTrace p cw ph before 0 tr) (v : Byte) :
    PhaseTrace p cw ph before 0 (tr ++ [sampleEntry p (addrField cw) v]) := by
  obtain ⟨l, rfl⟩ := h
  exact ⟨l ++ [v], by simp⟩

theorem PhaseTrace.write (h : PhaseTrace p cw ph before k tr) {r : Request}
    (hr : (phaseWrites p cw ph)[k]? = some r) :
    PhaseTrace p cw ph before (k + 1) (tr ++ [doneWrite r]) := by
  obtain ⟨l, rfl⟩ := h
  exact ⟨l, by simp [List.take_add_one, hr]⟩

theorem WrcmdTrace.sample (h : WrcmdTrace p cw start ph 0 tr) (v : Byte) :
    WrcmdTrace p cw start ph 0 (tr ++ [sampleEntry p (addrField cw) v]) := by
  cases ph with
  | one => exact PhaseTrace.sample h v
  | two =>
    obtain ⟨mid, one, two⟩ := h
    exact ⟨mid, one, two.sample v⟩

theorem WrcmdTrace.write (h : WrcmdTrace p cw start ph k tr) {r : Request}
    (hr : (phaseWrites p cw ph)[k]? = some r) :
    WrcmdTrace p cw start ph (k + 1) (tr ++ [doneWrite r]) := by
  cases ph with
  | one => exact PhaseTrace.write h hr
  | two =>
    obtain ⟨mid, one, two⟩ := h
    exact ⟨mid, one, two.write hr⟩

/-- The three writes of phase 1 lead to the second poll. -/
theorem WrcmdTrace.phaseTwo (h : WrcmdTrace p cw start .one 3 tr) :
    WrcmdTrace p cw start .two 0 tr := ⟨tr, h, .refl tr⟩

end

/-! ## The host that gives nothing more -/

/-- `rst` stays low and no further command is offered. -/
def State.HostDone (s : State) : Prop := s.HostSilent ∧ s.host.cmdValid = false

/-- A silent host stays silent, and its offer ends when it is taken. -/
theorem State.nextHost_of_silent (s : State) (taken : Bool) (h : s.HostSilent) :
    (s.nextHost taken).rst = false ∧ s.hostNext.tail = [] ∧
      (s.nextHost taken).cmdValid = (s.host.cmdValid && !taken) := by
  obtain ⟨-, hnext⟩ := h
  simp [s.nextHost_silent taken hnext, hnext]

theorem State.HostSilent.accept {s : State} (h : s.HostSilent) :
    (State.advanceHost true s).HostDone := by
  obtain ⟨rst, tail, valid⟩ := s.nextHost_of_silent true h
  exact ⟨⟨rst, tail⟩, by simp [valid]⟩

theorem State.HostDone.advance {s : State} (h : s.HostDone) :
    (State.advanceHost false s).HostDone := by
  obtain ⟨silent, noOffer⟩ := h
  obtain ⟨rst, tail, valid⟩ := s.nextHost_of_silent false silent
  exact ⟨⟨rst, tail⟩, by simp [valid, noOffer]⟩

/-! ## A run of a WRCMD -/

/-- The block holds the WRCMD `cw` and has made `k` writes of the phase it is in. -/
structure State.HasMade (p : Params) (cw : CmdWord) (start : List Transaction) (k : Nat)
    (s : State) : Prop where
  host : s.HostDone
  cfg : s.cfg = p
  latched : s.latchedWord = cw
  trace : WrcmdTrace p cw start s.ph k s.trace

/-- The block is in IDLE after a WRCMD, and OK means that all six writes were made. -/
structure State.AfterWrcmd (p : Params) (cw : CmdWord) (start : List Transaction) (s : State) :
    Prop where
  host : s.HostDone
  idle : s.st = .idle
  trace : s.status = .ok → WrcmdTrace p cw start .two 3 s.trace

/-- What every step of a WRCMD keeps, and every step in IDLE after it. -/
def State.WrcmdRun (p : Params) (cw : CmdWord) (start : List Transaction) (s : State) : Prop :=
  (s.st ≠ .idle ∧ s.HasMade p cw start (writesMade s.st)) ∨ s.AfterWrcmd p cw start

section

variable {p : Params} {cw : CmdWord} {start : List Transaction} {s t : State} {k : Nat}

theorem State.HostDone.ticked (h : s.HostDone) : s.ticked.HostDone := h.advance

/-! ### What an answer does -/

theorem State.HasMade.record_sample (h : s.HasMade p cw start 0) (v : Word) :
    (State.record (.read .byte s.addr s.cfg.ctrlOff)
      (Request.okReply v (.read .byte s.addr s.cfg.ctrlOff)) true s.ticked).HasMade
      p cw start 0 := by
  obtain ⟨host, rfl, rfl, trace⟩ := h
  have sampled := trace.sample (v.extractLsb' 0 8)
  rw [State.latchedWord, addrField_packWord] at sampled
  exact ⟨host.ticked, rfl, rfl, sampled⟩

theorem State.HasMade.record_write (h : s.HasMade p cw start k) {req : Request}
    (hreq : (phaseWrites s.cfg s.latchedWord s.ph)[k]? = some req) (v : Word) :
    (State.record req (req.okReply v) true s.ticked).HasMade p cw start (k + 1) := by
  obtain ⟨host, rfl, rfl, trace⟩ := h
  rw [okReply_phaseWrites (List.mem_of_getElem? hreq)]
  exact ⟨host.ticked, rfl, rfl, trace.write hreq⟩

/-- A move to the sequencer state that stands for the writes made. -/
theorem State.HasMade.goto {x : St} (h : s.HasMade p cw start (writesMade x)) (hx : x ≠ .idle) :
    (State.goto x s).WrcmdRun p cw start :=
  .inl ⟨hx, h.host, h.cfg, h.latched, h.trace⟩

theorem State.HasMade.countIssue (h : s.HasMade p cw start k) :
    (State.countIssue s).HasMade p cw start k :=
  ⟨h.host, h.cfg, h.latched, h.trace⟩

/-- A sample of a WRCMD ends it without OK, ends the poll, or asks for another sample. -/
theorem State.HasMade.pollStep (h : s.HasMade p cw start 0) (hst : s.st = .poll) (v : Byte) :
    (State.pollStep (State.goto .sel) v s).WrcmdRun p cw start := by
  obtain ⟨-, -, unresponsive⟩ | ⟨-, ⟨-, -, success⟩ | ⟨-, ⟨-, -, timeout⟩ | ⟨-, again⟩⟩⟩ :=
    State.pollStep_cases (State.goto .sel) v s
  · rw [unresponsive]
    exact .inr ⟨h.host, rfl, nofun⟩
  · rw [success]
    exact State.HasMade.goto ⟨h.host, h.cfg, h.latched, h.trace⟩ nofun
  · rw [timeout]
    exact .inr ⟨h.host, rfl, nofun⟩
  · rw [again]
    refine .inl ⟨by simp [hst], h.host, h.cfg, h.latched, ?_⟩
    simpa [hst, writesMade] using h.trace

/-- The third write of phase 1 leads to the second poll, that of phase 2 to the end with OK. -/
theorem State.HasMade.phaseEnds (h : s.HasMade p cw start 3) :
    (State.phaseEnds s).WrcmdRun p cw start := by
  obtain ⟨host, cfg, latched, trace⟩ := h
  cases hph : s.ph with
  | one =>
    rw [hph] at trace
    simp only [State.phaseEnds, hph]
    exact .inl ⟨nofun, host, cfg, latched, trace.phaseTwo⟩
  | two =>
    rw [hph] at trace
    simp only [State.phaseEnds, hph]
    exact .inr ⟨host, rfl, fun _ => trace⟩

/-- An answer to the enabled transaction of a WRCMD. -/
theorem State.HasMade.onAnswer (h : s.HasMade p cw start (writesMade s.st))
    (hop : s.op = opWrcmd) (hbusy : s.st ≠ .idle) (hlegal : pcLegal s.op s.st s.ph = true)
    {req : Request} (hreq : s.request = some req) (v : Word) :
    (State.onAnswer s.op s.st v (State.record req (req.okReply v) true s.ticked)).WrcmdRun
      p cw start := by
  rw [hop, pcLegal_wrcmd_iff] at hlegal
  obtain hst | hst | hwrite := hlegal
  · exact absurd hst hbusy
  · rw [s.request_wrcmd_poll hop hst] at hreq
    cases hreq
    rw [hst] at h
    simp only [State.onAnswer, hst, hop, if_true]
    exact (h.record_sample v).pollStep hst _
  · rw [s.request_wrcmd_write hop hwrite] at hreq
    have made := h.record_write hreq v
    obtain hst | hst | hst := hwrite
    · rw [hst] at made ⊢
      exact made.goto nofun
    · rw [hst] at made ⊢
      exact made.goto nofun
    · rw [hst] at made
      simp only [State.onAnswer, hst, hop, if_true]
      exact made.countIssue.phaseEnds

/-! ### Steps and runs -/

/-- Under such a host nothing but an answer takes the block out of its command, and nothing takes it
out of IDLE. -/
theorem State.WrcmdRun.step (hcw : opField cw = opWrcmd) (h : s.WrcmdRun p cw start)
    (hstep : step s = .next t) : t.WrcmdRun p cw start := by
  have host : s.HostDone := h.elim (fun ⟨_, made⟩ => made.host) (·.host)
  have ⟨⟨rst, _⟩, noOffer⟩ := host
  obtain ⟨-, ⟨reset, -⟩ | ⟨-, ⟨idle, -, wait⟩ | ⟨-, offer, -⟩ | ⟨-, offer, -⟩ |
    ⟨busy, legal, req, hreq, ⟨-, pending⟩ | ⟨-, -, failed⟩ | ⟨-, -, answered⟩⟩⟩⟩ :=
      step_cases s t hstep
  · exact absurd reset (by simp [rst])
  · obtain ⟨busy, -⟩ | ⟨-, -, trace⟩ := h
    · exact absurd idle busy
    · subst wait
      exact .inr ⟨host.advance, idle, trace⟩
  · exact absurd offer (by simp [noOffer])
  · exact absurd offer (by simp [noOffer])
  all_goals obtain ⟨-, made⟩ := h.resolve_right fun after => busy after.idle
  · subst pending
    exact .inl ⟨busy, host.ticked, made.cfg, made.latched, made.trace⟩
  · subst failed
    exact .inr ⟨host.ticked, rfl, nofun⟩
  · have hop : s.op = opWrcmd := by rw [← hcw, ← made.latched, s.opField_latchedWord]
    subst answered
    exact made.onAnswer hop busy legal hreq _

/-- `Accept` of a WRCMD whose host gives nothing more. -/
theorem State.wrcmdRun_acceptCommand (h : s.HostSilent) (d : DevAddr) (b0 b1 b2 : Byte)
    (x y z : Word) :
    (State.acceptCommand (.wrcmd d b0 b1 b2 x y z) s).WrcmdRun s.cfg
      (encode (.wrcmd d b0 b1 b2 x y z)) s.trace :=
  .inl ⟨nofun, h.accept, rfl, rfl, .refl s.trace⟩

end

/-- A run of `n + 1` steps is one step and a run of `n`. -/
theorem run_succ_eq_next_iff {n : Nat} {s t : State} :
    Host.Core.run Sys2Proof.core (n + 1) s = .next t ↔
      ∃ u, step s = .next u ∧ Host.Core.run Sys2Proof.core n u = .next t := by
  change _ ↔ ∃ u, Sys2Proof.core.step s = .next u ∧ _
  cases hstep : Sys2Proof.core.step s <;> simp [Host.Core.run, hstep]

/-- What every step keeps holds at the end of every run. -/
theorem run_keeps {P : State → Prop} (hP : ∀ s t, P s → step s = .next t → P t) {n : Nat}
    {s t : State} (hs : P s) (h : Host.Core.run Sys2Proof.core n s = .next t) : P t := by
  induction n generalizing s with
  | zero =>
    injection h with h
    exact h ▸ hs
  | succ n ih =>
    obtain ⟨u, hstep, hrun⟩ := run_succ_eq_next_iff.mp h
    exact ih (hP s u hs hstep) hrun

end Machine

/-- Settles O31: zero extension keeps the value and the low 24 bits, and clears the top byte. -/
theorem phaseOneSelectorIsZeroExtended : Obligations.PhaseOneSelectorIsZeroExtended := by
  intro s hop hph hst
  have request : s.request = some (.write .word s.addr s.cfg.selOff (s.reg.setWidth 32)) := by
    rw [s.request_legal (by simp [hop, hst, pcLegal_wrcmd_iff]), hst,
      s.selector_wrcmd_one hop hph]
  refine ⟨_, request, BitVec.toNat_setWidth_of_le (by decide), ?_, ?_⟩
  · rw [BitVec.extractLsb'_setWidth_of_le (by decide), extractLsb'_above_reg]
  · rw [BitVec.extractLsb'_setWidth_of_le (by decide), BitVec.extractLsb'_eq_self]

/-- Settles O35: by the invariant `State.WrcmdRun`, from the step that accepts the command on. -/
theorem okWrcmdWritesExactlySix : Obligations.OkWrcmdWritesExactlySix := by
  rintro s t n d b0 b1 b2 x y z ⟨hcfg, hidle, silent, hvalid, hdecode⟩ hn hrun hend - hok
  obtain ⟨n, rfl⟩ := Nat.exists_eq_succ_of_ne_zero hn.ne'
  obtain ⟨u, hstep, hrest⟩ := run_succ_eq_next_iff.mp hrun
  rw [step_accept s _ hcfg silent.1 hidle hvalid hdecode] at hstep
  cases hstep
  have atEnd := run_keeps (fun s t => State.WrcmdRun.step (by simp [encode]))
    (State.wrcmdRun_acceptCommand silent d b0 b1 b2 x y z) hrest
  obtain ⟨busy, -⟩ | ⟨-, -, trace⟩ := atEnd
  · exact absurd hend busy
  · obtain ⟨mid, ⟨l1, rfl⟩, l2, hl⟩ := trace hok
    refine ⟨l1, l2, ?_⟩
    simpa [phaseWrites, issueWrites, encode] using hl

end Sys2Proof
end

section
/-! PROOFS. Exceptions (60_exceptions.md): the step that raises AccessFailure (R122), and where
IllegalCommand can come from (R126). -/

namespace Sys2Proof

open Config Machine

/-- Settles O38: the step raises AccessFailure on the recorded failure. The raise sets `status`,
`res_valid` and IDLE; the record touches the trace and the bytes written; the tick before it touches
the two ports alone. -/
theorem failedTransactionEndsTheCommand : Obligations.FailedTransactionEndsTheCommand := by
  rintro s req hcfg hrst hreq ⟨hdone, hfail⟩
  refine ⟨_, step_fail s req hcfg hrst hreq hdone hfail, ?_⟩
  simp [State.latchedWord, Cause.status]

namespace Machine

/-! ## Results other than IllegalCommand -/

/-- A valid result in `s`, if there is one, is not IllegalCommand. -/
def State.NotIllegal (s : State) : Prop := s.resValid = true → s.status ≠ .illegalCommand

theorem State.notIllegal_of_no_result {s : State} (h : s.resValid = false) : s.NotIllegal :=
  fun valid => absurd (h.symm.trans valid) nofun

/-- The other three exceptions end a command with a status of their own (R120). -/
theorem State.raise_notIllegal (e : Cause) (h : e ≠ .illegalCommand) (s : State) :
    (State.raise e s).NotIllegal := by
  intro _
  cases e with
  | illegalCommand => exact absurd rfl h
  | accessFailure | timeout | deviceUnresponsive => exact nofun

theorem State.complete_notIllegal (s : State) : (State.complete s).NotIllegal := fun _ => nofun

/-- `Accept` of a defined opcode clears the result and raises nothing (R24). -/
theorem State.acceptCommand_notIllegal (i : Instr) (s : State) :
    (State.acceptCommand i s).NotIllegal := by
  refine State.notIllegal_of_no_result ?_
  cases i <;> rfl

/-- A sample raises DeviceUnresponsive or Timeout; otherwise it is the success or the next sample
that decides. -/
theorem State.pollStep_notIllegal {success : State → State} (v : Byte) {s : State}
    (hsuccess : ∀ u, u.resValid = false → (success u).NotIllegal) (h : s.resValid = false) :
    (State.pollStep success v s).NotIllegal := by
  obtain ⟨-, -, unresponsive⟩ | ⟨-, ⟨-, -, succeeds⟩ | ⟨-, ⟨-, -, timeout⟩ | ⟨-, again⟩⟩⟩ :=
    State.pollStep_cases success v s
  · rw [unresponsive]
    exact State.raise_notIllegal .deviceUnresponsive nofun _
  · rw [succeeds]
    exact hsuccess _ h
  · rw [timeout]
    exact State.raise_notIllegal .timeout nofun _
  · rw [again]
    exact State.notIllegal_of_no_result h

/-- The end of an issue of WRCMD is a poll entry or a completion. -/
theorem State.phaseEnds_notIllegal {s : State} (h : s.resValid = false) :
    (State.phaseEnds s).NotIllegal := by
  cases hph : s.ph with
  | one =>
    simp only [State.phaseEnds, hph]
    exact State.notIllegal_of_no_result h
  | two =>
    simp only [State.phaseEnds, hph]
    exact State.complete_notIllegal s

/-- An answer to the transaction of a command in progress never raises IllegalCommand (R126). -/
theorem State.onAnswer_notIllegal (op : Byte) (x : St) (v : Word) {t : State}
    (h : t.resValid = false) : (State.onAnswer op x v t).NotIllegal := by
  cases x with
  | idle | sel | dat | rd1 | rd2 => exact State.notIllegal_of_no_result h
  | ack => exact State.complete_notIllegal t
  | poll =>
    refine State.pollStep_notIllegal _ (fun u hu => ?_) h
    split
    · exact State.notIllegal_of_no_result hu
    · exact State.complete_notIllegal u
  | ctl =>
    simp only [State.onAnswer]
    split
    · exact State.phaseEnds_notIllegal h
    · exact State.complete_notIllegal _

end Machine

/-- Settles O12: of the steps other than `Reset`, only the wait in IDLE and `Accept` of a reserved
word can leave IllegalCommand behind. A command in progress starts its step without a result, by the
invariant, and ends with another status where it ends. -/
theorem illegalCommandOnlyAtAccept : Obligations.IllegalCommandOnlyAtAccept := by
  rintro s t ⟨-, -, noResult, -⟩ hstep hrst hvalid hstatus
  have impossible (h : t.NotIllegal) : False := h hvalid hstatus
  obtain ⟨-, ⟨reset, -⟩ | ⟨-, ⟨idle, noOffer, rfl⟩ | ⟨idle, offer, reserved, rfl⟩ |
    ⟨-, -, i, -, rfl⟩ | ⟨busy, -, req, -, ⟨-, rfl⟩ | ⟨-, -, rfl⟩ | ⟨-, -, rfl⟩⟩⟩⟩ :=
      step_cases s t hstep
  · exact absurd reset (by simp [hrst])
  · exact ⟨idle, rfl, rfl, .inl ⟨noOffer, hvalid, hstatus⟩⟩
  · exact ⟨idle, rfl, rfl, .inr ⟨offer, reserved⟩⟩
  · exact (impossible (State.acceptCommand_notIllegal i s)).elim
  · exact (impossible (State.notIllegal_of_no_result (noResult busy))).elim
  · exact (impossible (State.raise_notIllegal .accessFailure nofun _)).elim
  · exact (impossible (State.onAnswer_notIllegal _ _ _ (noResult busy))).elim

end Sys2Proof
end

section
/-! PROOFS. The command word (30_encoding.md R50 to R54, R60, R62): the parts of the fields `addr`
and `reg`, the round trip of decoder and encoder, and the words and texts of listing lines. -/

namespace Sys2Proof

open Config Machine

/-! ## The parts of a field -/

/-- A part of a field is the part of the word at the same place. -/
theorem extractLsb'_field {w : Nat} (x : BitVec w) (start len k n : Nat) (h : k + n ≤ len) :
    (x.extractLsb' start len).extractLsb' k n = x.extractLsb' (start + k) n := by
  refine BitVec.eq_of_getLsbD_eq fun i hi => ?_
  simp [hi, show k + i < len by omega, Nat.add_assoc]

theorem busField_eq (cw : CmdWord) : busField cw = (addrField cw).extractLsb' 8 8 :=
  (extractLsb'_field cw 120 16 8 8 (by decide)).symm

theorem devField_eq (cw : CmdWord) : devField cw = (addrField cw).extractLsb' 3 5 :=
  (extractLsb'_field cw 120 16 3 5 (by decide)).symm

theorem fnField_eq (cw : CmdWord) : fnField cw = (addrField cw).extractLsb' 0 3 :=
  (extractLsb'_field cw 120 16 0 3 (by decide)).symm

theorem b0Field_eq (cw : CmdWord) : b0Field cw = (regField cw).extractLsb' 0 8 :=
  (extractLsb'_field cw 96 24 0 8 (by decide)).symm

theorem b1Field_eq (cw : CmdWord) : b1Field cw = (regField cw).extractLsb' 8 8 :=
  (extractLsb'_field cw 96 24 8 8 (by decide)).symm

theorem b2Field_eq (cw : CmdWord) : b2Field cw = (regField cw).extractLsb' 16 8 :=
  (extractLsb'_field cw 96 24 16 8 (by decide)).symm

/-- The `reg` field of a word is the register number of its three byte fields (R55, R100). -/
theorem internalRegisterNumber_fields (cw : CmdWord) :
    internalRegisterNumber (b0Field cw) (b1Field cw) (b2Field cw) = regField cw :=
  internalRegisterNumber_extractLsb' cw 96

/-- The `addr` field of a word is the address of its three address fields (R50, R60). -/
@[simp] theorem devAddrOf_bits (cw : CmdWord) : (devAddrOf cw).bits = addrField cw := by
  have busDev : busField cw ++ devField cw = cw.extractLsb' 123 13 :=
    BitVec.extractLsb'_append_extractLsb'_eq_extractLsb' rfl
  have all : cw.extractLsb' 123 13 ++ fnField cw = addrField cw :=
    BitVec.extractLsb'_append_extractLsb'_eq_extractLsb' rfl
  rw [← all, ← busDev]
  rfl

section

variable (op : Byte) (d : DevAddr) (addr : BitVec ADDR_W) (reg : BitVec REG_W)
  (b0 b1 b2 : Byte) (a b c : Word)

@[simp] theorem devAddrOf_packWord : devAddrOf (packWord op d.bits reg a b c) = d := by
  rw [devAddrOf, busField_eq, devField_eq, fnField_eq, addrField_packWord, DevAddr.bits]
  congr 1
  · rw [BitVec.extractLsb'_append_eq_of_le (by decide)]
    exact BitVec.extractLsb'_append_eq_left
  · rw [BitVec.extractLsb'_append_eq_of_le (by decide)]
    exact BitVec.extractLsb'_append_eq_right
  · exact BitVec.extractLsb'_append_eq_right

@[simp] theorem b0Field_packWord :
    b0Field (packWord op addr (internalRegisterNumber b0 b1 b2) a b c) = b0 := by
  rw [b0Field_eq, regField_packWord]
  exact BitVec.extractLsb'_append_eq_right

@[simp] theorem b1Field_packWord :
    b1Field (packWord op addr (internalRegisterNumber b0 b1 b2) a b c) = b1 := by
  rw [b1Field_eq, regField_packWord, internalRegisterNumber,
    BitVec.extractLsb'_append_eq_of_le (by decide)]
  exact BitVec.extractLsb'_append_eq_right

@[simp] theorem b2Field_packWord :
    b2Field (packWord op addr (internalRegisterNumber b0 b1 b2) a b c) = b2 := by
  rw [b2Field_eq, regField_packWord, internalRegisterNumber,
    BitVec.extractLsb'_append_eq_of_le (by decide), BitVec.extractLsb'_append_eq_of_le (by decide)]
  exact BitVec.extractLsb'_eq_self

end

/-! ## Decoder and encoder -/

theorem opcode_defined (i : Instr) : i.opcode ∈ definedOpcodes := by
  cases i with
  | waitrd => exact (Laws.OpcodeField.waitrd ..).2
  | waitwr => exact (Laws.OpcodeField.waitwr ..).2
  | issuerd => exact (Laws.OpcodeField.issuerd ..).2
  | issuewr => exact (Laws.OpcodeField.issuewr ..).2
  | rdcmd => exact (Laws.OpcodeField.rdcmd ..).2
  | wrcmd => exact (Laws.OpcodeField.wrcmd ..).2

/-- Settles O1: the opcode field selects the arm of the decoder, and each operand is read back from
the field it was packed into. -/
theorem decodeOfEncodeIsIdentity : Obligations.DecodeOfEncodeIsIdentity := by
  intro i
  cases i with
  | waitrd | waitwr | issuerd | issuewr | rdcmd | wrcmd =>
    simp [decode, encode, opWaitrd, opWaitwr, opIssuerd, opIssuewr, opRdcmd, opWrcmd]

/-- Settles O2: whichever arm the decoder took, the encoder packs the fields it read, and a word is
its fields. -/
theorem encodeOfDecodeIsIdentity : Obligations.EncodeOfDecodeIsIdentity := by
  intro cw i h
  have fields : packWord i.opcode (addrField cw) (regField cw) (aField cw) (bField cw) (cField cw) =
      cw := decode_ok_opcode cw i h ▸ packWord_fields cw
  simp only [decode] at h
  split_ifs at h <;> cases h <;>
    simpa only [encode, Instr.opcode, devAddrOf_bits, internalRegisterNumber_fields] using fields

/-- Settles O3: a word with a defined opcode decodes, and only such a word. -/
theorem opcodeAloneSelectsTheCommand : Obligations.OpcodeAloneSelectsTheCommand := by
  refine fun cw => ⟨fun i h => ?_, decode_of_reserved cw, fun refused hdef => ?_⟩
  · have hop := decode_ok_opcode cw i h
    exact ⟨hop, hop ▸ opcode_defined i⟩
  · obtain ⟨i, hi⟩ := decode_of_defined cw hdef
    exact absurd (hi.symm.trans refused) nofun

/-- Settles O4, word by word. -/
theorem specWordsDecode : Obligations.SpecWordsDecode :=
  ⟨rfl, rfl, rfl, rfl, rfl, rfl, rfl, rfl⟩

/-! ## Listing lines -/

/-- A line of a command assembles to that command's encoding. -/
theorem assemble_of_instr {l : Line} {i : Instr} (h : l.instr = some i) :
    l.assemble = encode i := by
  cases l with
  | raw cw => cases h
  | _ => simp [Line.assemble, h]

theorem decode_assemble {l : Line} {i : Instr} (h : l.instr = some i) :
    decode l.assemble = .ok i := by
  rw [assemble_of_instr h, decodeOfEncodeIsIdentity i]

/-- A line writes 0 in every ignored field (R54). -/
theorem wellFormed_of_instr {l : Line} {i : Instr} (h : l.instr = some i) :
    i.wellFormed = true := by
  cases l <;> cases h <;> rfl

/-- Settles O6: each line's word is the encoding of its command, and its text is the list of its
operands, folded. -/
theorem assembledLinesDecode : Obligations.AssembledLinesDecode := by
  intro d registerSelector data dat0 dat1 dat2 regB0 regB1 regB2 cw issuerd issuewr wrcmd device
  have hissuerd : issuerd.assemble = encode (.issuerd d registerSelector data 0 0) :=
    assemble_of_instr rfl
  have hissuewr : issuewr.assemble = encode (.issuewr d registerSelector data 0 0) :=
    assemble_of_instr rfl
  have hwrcmd : wrcmd.assemble = encode (.wrcmd d regB0 regB1 regB2 dat0 dat1 dat2) :=
    assemble_of_instr rfl
  refine ⟨decode_assemble rfl, decode_assemble rfl, decode_assemble rfl, decode_assemble rfl,
    decode_assemble rfl, decode_assemble rfl, rfl,
    ?_, ?_, ?_, ?_, ?_, ?_, ?_, ?_, ?_, ?_, ?_, ?_, ?_,
    fun l i h => ⟨decode_assemble h, wellFormed_of_instr h⟩⟩
  · simp [hissuerd, hissuewr, encode]
  iterate 6 simp [hwrcmd, encode]
  all_goals
    simp [issuerd, issuewr, wrcmd, device, Line.text, lineText, String.append_assoc]

end Sys2Proof
end

section
/-! PROOFS. What processing an answer leaves unchanged, and what it does not read: the frame and the
noninterference of `State.onAnswer`, and from them the fields that a format ignores
(30_encoding.md R54). -/

namespace Sys2Proof

open Config Machine

namespace Machine

/-! ## The frame of an answer -/

section

variable (op : Byte) (x : St) (v : Word) (t : State)

/-- A sample of a command `op` changes no more than `st`, the poll state, `res_valid` and
`status`. -/
theorem State.pollStep_frame (sample : Byte) :
    ∃ st rounds ffc prevIdle resValid status,
      State.pollStep (if op = opWrcmd then State.goto .sel else State.complete) sample t =
        { t with
          st := st, rounds := rounds, ffc := ffc, prevIdle := prevIdle, resValid := resValid
          status := status } := by
  obtain ⟨-, -, h⟩ | ⟨-, ⟨-, -, h⟩ | ⟨-, ⟨-, -, h⟩ | ⟨-, h⟩⟩⟩ :=
    State.pollStep_cases (if op = opWrcmd then State.goto .sel else State.complete) sample t
  · exact ⟨_, _, _, _, _, _, h⟩
  · by_cases hop : op = opWrcmd
    · simp only [if_pos hop] at h ⊢
      exact ⟨_, _, _, _, _, _, h⟩
    · simp only [if_neg hop] at h ⊢
      exact ⟨_, _, _, _, _, _, h⟩
  · exact ⟨_, _, _, _, _, _, h⟩
  · exact ⟨_, _, _, _, _, _, h⟩

/-- The end of an issue of a command `op` counts it, and changes no more besides than the sequencer
state, the poll state, `res_valid` and `status`. -/
theorem State.issueEnds_frame :
    ∃ st ph rounds ffc prevIdle resValid status,
      (if op = opWrcmd then State.phaseEnds (State.countIssue t)
        else State.complete (State.countIssue t)) =
        { t with
          st := st, ph := ph, rounds := rounds, ffc := ffc, prevIdle := prevIdle
          resValid := resValid, status := status, issued := t.issued + 1 } := by
  by_cases hop : op = opWrcmd
  · simp only [if_pos hop, State.phaseEnds]
    split <;> exact ⟨_, _, _, _, _, _, _, rfl⟩
  · simp only [if_neg hop]
    exact ⟨_, _, _, _, _, _, _, rfl⟩

/-- An answer changes no more than the sequencer state, the poll state, the result state and the
result latches. -/
theorem State.onAnswer_frame :
    ∃ st ph d1 d2 rounds ffc prevIdle resValid status issued,
      State.onAnswer op x v t =
        { t with
          st := st, ph := ph, d1 := d1, d2 := d2, rounds := rounds, ffc := ffc
          prevIdle := prevIdle, resValid := resValid, status := status, issued := issued } := by
  cases x with
  | idle | sel | dat | rd1 | rd2 | ack => exact ⟨_, _, _, _, _, _, _, _, _, _, rfl⟩
  | poll =>
    obtain ⟨_, _, _, _, _, _, h⟩ := State.pollStep_frame op t (v.extractLsb' 0 8)
    exact ⟨_, _, _, _, _, _, _, _, _, _, h⟩
  | ctl =>
    obtain ⟨_, _, _, _, _, _, _, h⟩ := State.issueEnds_frame op t
    exact ⟨_, _, _, _, _, _, _, _, _, _, h⟩

@[simp] theorem State.onAnswer_op : (State.onAnswer op x v t).op = t.op := by
  obtain ⟨_, _, _, _, _, _, _, _, _, _, h⟩ := State.onAnswer_frame op x v t; rw [h]
@[simp] theorem State.onAnswer_addr : (State.onAnswer op x v t).addr = t.addr := by
  obtain ⟨_, _, _, _, _, _, _, _, _, _, h⟩ := State.onAnswer_frame op x v t; rw [h]
@[simp] theorem State.onAnswer_reg : (State.onAnswer op x v t).reg = t.reg := by
  obtain ⟨_, _, _, _, _, _, _, _, _, _, h⟩ := State.onAnswer_frame op x v t; rw [h]
@[simp] theorem State.onAnswer_a : (State.onAnswer op x v t).a = t.a := by
  obtain ⟨_, _, _, _, _, _, _, _, _, _, h⟩ := State.onAnswer_frame op x v t; rw [h]
@[simp] theorem State.onAnswer_b : (State.onAnswer op x v t).b = t.b := by
  obtain ⟨_, _, _, _, _, _, _, _, _, _, h⟩ := State.onAnswer_frame op x v t; rw [h]
@[simp] theorem State.onAnswer_c : (State.onAnswer op x v t).c = t.c := by
  obtain ⟨_, _, _, _, _, _, _, _, _, _, h⟩ := State.onAnswer_frame op x v t; rw [h]
@[simp] theorem State.onAnswer_cfg : (State.onAnswer op x v t).cfg = t.cfg := by
  obtain ⟨_, _, _, _, _, _, _, _, _, _, h⟩ := State.onAnswer_frame op x v t; rw [h]
@[simp] theorem State.onAnswer_host : (State.onAnswer op x v t).host = t.host := by
  obtain ⟨_, _, _, _, _, _, _, _, _, _, h⟩ := State.onAnswer_frame op x v t; rw [h]
@[simp] theorem State.onAnswer_hostNext : (State.onAnswer op x v t).hostNext = t.hostNext := by
  obtain ⟨_, _, _, _, _, _, _, _, _, _, h⟩ := State.onAnswer_frame op x v t; rw [h]
@[simp] theorem State.onAnswer_env : (State.onAnswer op x v t).env = t.env := by
  obtain ⟨_, _, _, _, _, _, _, _, _, _, h⟩ := State.onAnswer_frame op x v t; rw [h]
@[simp] theorem State.onAnswer_trace : (State.onAnswer op x v t).trace = t.trace := by
  obtain ⟨_, _, _, _, _, _, _, _, _, _, h⟩ := State.onAnswer_frame op x v t; rw [h]
@[simp] theorem State.onAnswer_written : (State.onAnswer op x v t).written = t.written := by
  obtain ⟨_, _, _, _, _, _, _, _, _, _, h⟩ := State.onAnswer_frame op x v t; rw [h]

end

/-! ## The state with the answer recorded -/

section

variable (req : Request) (s : State)

@[simp] theorem State.answered_st : (s.answered req).st = s.st := rfl
@[simp] theorem State.answered_ph : (s.answered req).ph = s.ph := rfl
@[simp] theorem State.answered_op : (s.answered req).op = s.op := rfl
@[simp] theorem State.answered_addr : (s.answered req).addr = s.addr := rfl
@[simp] theorem State.answered_reg : (s.answered req).reg = s.reg := rfl
@[simp] theorem State.answered_a : (s.answered req).a = s.a := rfl
@[simp] theorem State.answered_b : (s.answered req).b = s.b := rfl
@[simp] theorem State.answered_c : (s.answered req).c = s.c := rfl
@[simp] theorem State.answered_d1 : (s.answered req).d1 = s.d1 := rfl
@[simp] theorem State.answered_d2 : (s.answered req).d2 = s.d2 := rfl
@[simp] theorem State.answered_rounds : (s.answered req).rounds = s.rounds := rfl
@[simp] theorem State.answered_ffc : (s.answered req).ffc = s.ffc := rfl
@[simp] theorem State.answered_prevIdle : (s.answered req).prevIdle = s.prevIdle := rfl
@[simp] theorem State.answered_resValid : (s.answered req).resValid = s.resValid := rfl
@[simp] theorem State.answered_status : (s.answered req).status = s.status := rfl
@[simp] theorem State.answered_issued : (s.answered req).issued = s.issued := rfl
@[simp] theorem State.answered_cfg : (s.answered req).cfg = s.cfg := rfl
@[simp] theorem State.answered_host : (s.answered req).host = s.nextHost false := rfl
@[simp] theorem State.answered_hostNext : (s.answered req).hostNext = s.hostNext.tail := rfl
@[simp] theorem State.answered_latchedWord : (s.answered req).latchedWord = s.latchedWord := rfl
@[simp] theorem State.answered_env : (s.answered req).env = s.env.tail := rfl
@[simp] theorem State.answered_trace :
    (s.answered req).trace = s.trace ++ [⟨req, req.okReply s.accPort.rdata⟩] := rfl
@[simp] theorem State.answered_written :
    (s.answered req).written = Memory.writeAll s.written req.cells := rfl

end

/-! ## The frame of `Accept` -/

section

variable (i : Instr) (s : State)

@[simp] theorem State.acceptCommand_cfg : (State.acceptCommand i s).cfg = s.cfg := by
  cases i <;> rfl
@[simp] theorem State.acceptCommand_host : (State.acceptCommand i s).host = s.nextHost true := by
  cases i <;> rfl
@[simp] theorem State.acceptCommand_hostNext :
    (State.acceptCommand i s).hostNext = s.hostNext.tail := by
  cases i <;> rfl
@[simp] theorem State.acceptCommand_env : (State.acceptCommand i s).env = s.env := by
  cases i <;> rfl
@[simp] theorem State.acceptCommand_trace : (State.acceptCommand i s).trace = s.trace := by
  cases i <;> rfl
@[simp] theorem State.acceptCommand_written : (State.acceptCommand i s).written = s.written := by
  cases i <;> rfl
@[simp] theorem State.acceptCommand_d1 : (State.acceptCommand i s).d1 = s.d1 := by
  cases i <;> rfl
@[simp] theorem State.acceptCommand_d2 : (State.acceptCommand i s).d2 = s.d2 := by
  cases i <;> rfl
@[simp] theorem State.acceptCommand_resValid : (State.acceptCommand i s).resValid = false := by
  cases i <;> rfl
@[simp] theorem State.acceptCommand_issued : (State.acceptCommand i s).issued = 0 := by
  cases i <;> rfl
@[simp] theorem State.acceptCommand_op : (State.acceptCommand i s).op = i.opcode := by
  cases i <;> rfl
@[simp] theorem State.acceptCommand_latchedWord :
    (State.acceptCommand i s).latchedWord = encode i := by
  cases i <;> rfl

/-- `Accept` of a defined command leads into the command. -/
theorem State.acceptCommand_busy : (State.acceptCommand i s).st ≠ .idle := by
  cases i <;> nofun

end

/-! ## What an answer does not read -/

/-- `t` with the fields of `o` that processing an answer neither reads nor writes: the operand
latches, the inputs of both ports, and the two records. -/
def State.withContext (o t : State) : State :=
  { t with
    addr := o.addr, reg := o.reg, a := o.a, b := o.b, c := o.c
    host := o.host, hostNext := o.hostNext, env := o.env, draws := o.draws
    trace := o.trace, written := o.written }

theorem State.pollStep_withContext {success : State → State} (o : State)
    (h : ∀ u, success (o.withContext u) = o.withContext (success u)) (sample : Byte) (t : State) :
    State.pollStep success sample (o.withContext t) =
      o.withContext (State.pollStep success sample t) := by
  simp only [State.pollStep, apply_ite o.withContext, ← h]
  rfl

/-- The context of an answer has no part in what the answer does. -/
theorem State.onAnswer_withContext (op : Byte) (x : St) (v : Word) (o t : State) :
    State.onAnswer op x v (o.withContext t) = o.withContext (State.onAnswer op x v t) := by
  cases x with
  | idle | sel | dat | rd1 | rd2 | ack => rfl
  | poll => exact State.pollStep_withContext o (fun u => by split <;> rfl) _ t
  | ctl =>
    by_cases hop : op = opWrcmd
    · cases hph : t.ph <;>
        simp only [State.onAnswer, if_pos hop, State.phaseEnds, State.countIssue,
          State.withContext, hph] <;> rfl
    · simp only [State.onAnswer, if_neg hop]
      rfl

/-! ## The latches of a command in progress -/

/-- No step changes the configuration (R22). -/
theorem step_cfg {s t : State} (h : step s = .next t) : t.cfg = s.cfg := by
  obtain ⟨-, ⟨-, rfl⟩ | ⟨-, ⟨-, -, rfl⟩ | ⟨-, -, -, rfl⟩ | ⟨-, -, i, -, rfl⟩ |
    ⟨-, -, req, -, ⟨-, rfl⟩ | ⟨-, -, rfl⟩ | ⟨-, -, rfl⟩⟩⟩⟩ := step_cases s t h
  · rfl
  · rfl
  · rfl
  · exact State.acceptCommand_cfg i s
  · rfl
  · rfl
  · exact State.onAnswer_cfg _ _ _ _

/-- What a step of a command other than `Reset` can do: wait, end with AccessFailure, or process
the answer. -/
theorem step_busy_cases {s t : State} (busy : s.st ≠ .idle) (hrst : s.host.rst = false)
    (h : step s = .next t) :
    s.cfg.wellFormed = true ∧ pcLegal s.op s.st s.ph = true ∧ ∃ req, s.request = some req ∧
      ((s.accPort.done = false ∧ t = s.ticked) ∨
       (s.AnswersFail ∧ t = State.raise .accessFailure (s.answeredFail req)) ∨
       (s.AnswersOk ∧ t = State.onAnswer s.op s.st s.accPort.rdata (s.answered req))) := by
  obtain ⟨hwf, ⟨reset, -⟩ | ⟨-, ⟨idle, -⟩ | ⟨idle, -⟩ | ⟨idle, -⟩ |
    ⟨-, hlegal, req, hq, ⟨hd, ht⟩ | ⟨hd, hf, ht⟩ | ⟨hd, hf, ht⟩⟩⟩⟩ := step_cases s t h
  · exact absurd reset (by simp [hrst])
  · exact absurd idle busy
  · exact absurd idle busy
  · exact absurd idle busy
  · exact ⟨hwf, hlegal, req, hq, .inl ⟨hd, ht⟩⟩
  · exact ⟨hwf, hlegal, req, hq, .inr (.inl ⟨⟨hd, hf⟩, ht⟩)⟩
  · exact ⟨hwf, hlegal, req, hq, .inr (.inr ⟨⟨hd, hf⟩, ht⟩)⟩

/-- A step of a command other than `Reset` keeps `op` and the operand latches (R43). -/
theorem step_latches {s t : State} (busy : s.st ≠ .idle) (hrst : s.host.rst = false)
    (h : step s = .next t) :
    t.op = s.op ∧ t.addr = s.addr ∧ t.reg = s.reg ∧ t.a = s.a ∧ t.b = s.b ∧ t.c = s.c := by
  obtain ⟨-, -, req, -, ⟨-, rfl⟩ | ⟨-, rfl⟩ | ⟨-, rfl⟩⟩ := step_busy_cases busy hrst h
  · exact ⟨rfl, rfl, rfl, rfl, rfl, rfl⟩
  · exact ⟨rfl, rfl, rfl, rfl, rfl, rfl⟩
  · simp

/-! ## The latches of ignored fields -/

/-- Other values in the latches of the fields that some format ignores. -/
def State.setOperands (r : BitVec REG_W) (x y z : Word) (s : State) : State :=
  { s with reg := r, a := x, b := y, c := z }

theorem State.onAnswer_setOperands (op : Byte) (p : St) (v : Word) (r : BitVec REG_W) (x y z : Word)
    (t : State) :
    State.onAnswer op p v (t.setOperands r x y z) =
      (State.onAnswer op p v t).setOperands r x y z := by
  have h := State.onAnswer_withContext op p v (t.setOperands r x y z) t
  obtain ⟨_, _, _, _, _, _, _, _, _, _, frame⟩ := State.onAnswer_frame op p v t
  rw [frame] at h ⊢
  exact h

theorem State.maskIgnored_eq_setOperands (s : State) :
    ∃ r x y z, s.maskIgnored = s.setOperands r x y z := by
  unfold State.maskIgnored
  split_ifs <;> exact ⟨_, _, _, _, rfl⟩

/-- The enabled transaction reads no latch of an ignored field (R53, R90, R102). -/
theorem State.maskIgnored_request (s : State) : s.maskIgnored.request = s.request := by
  by_cases hw : s.op = opWrcmd
  · simp only [State.maskIgnored, if_pos hw]
  by_cases hi : s.op = opIssuerd ∨ s.op = opIssuewr
  · simp only [State.maskIgnored, if_neg hw, if_pos hi, State.request, State.selector,
      State.dataWord]
  · obtain ⟨hrd, hwr⟩ := not_or.mp hi
    simp only [State.maskIgnored, if_neg hw, if_neg hi, State.request]
    cases s.st <;> simp [pcLegal, hw, hrd, hwr]

/-- Equal masks: the two states differ in the operand latches at most. -/
theorem State.eq_setOperands_of_maskIgnored {s1 s2 : State}
    (h : s1.maskIgnored = s2.maskIgnored) : s2 = s1.setOperands s2.reg s2.a s2.b s2.c := by
  obtain ⟨_, _, _, _, h1⟩ := s1.maskIgnored_eq_setOperands
  obtain ⟨_, _, _, _, h2⟩ := s2.maskIgnored_eq_setOperands
  rw [h1, h2] at h
  exact (congrArg (State.setOperands s2.reg s2.a s2.b s2.c) h).symm

/-- Whether other operand latches are masked depends on `op` and the latches alone. -/
theorem State.maskIgnored_setOperands_congr {s t : State} {r : BitVec REG_W} {x y z : Word}
    (hop : t.op = s.op) (hreg : t.reg = s.reg) (ha : t.a = s.a) (hb : t.b = s.b) (hc : t.c = s.c)
    (h : s.maskIgnored = (s.setOperands r x y z).maskIgnored) :
    t.maskIgnored = (t.setOperands r x y z).maskIgnored := by
  have op_eq (u : State) : (u.setOperands r x y z).op = u.op := rfl
  simp only [State.maskIgnored, op_eq, hop] at h ⊢
  split_ifs at h ⊢ with hw hi
  · obtain rfl : s.reg = r := congrArg State.reg h
    obtain rfl : s.a = x := congrArg State.a h
    obtain rfl : s.b = y := congrArg State.b h
    obtain rfl : s.c = z := congrArg State.c h
    rw [← hreg, ← ha, ← hb, ← hc]
    rfl
  · obtain rfl : s.a = x := congrArg State.a h
    obtain rfl : s.b = y := congrArg State.b h
    rw [← ha, ← hb]
    rfl
  · rfl

/-- In a command, operand latches that the enabled transaction does not read have no part in the
step: they are kept, or cleared by `Reset`. -/
theorem step_setOperands {s t : State} (busy : s.st ≠ .idle) (h : step s = .next t)
    {r : BitVec REG_W} {x y z : Word} (hreq : (s.setOperands r x y z).request = s.request) :
    step (s.setOperands r x y z) =
      .next (if s.host.rst then t else t.setOperands r x y z) := by
  by_cases hrst : s.host.rst = true
  · have hwf := (step_cases s t h).1
    rw [step_reset s hwf hrst] at h
    rw [step_reset (s.setOperands r x y z) hwf hrst, if_pos hrst, ← h, State.resetEvent,
      State.abandonedBytes, hreq]
    rfl
  · rw [if_neg hrst]
    have hrst : s.host.rst = false := by simpa using hrst
    obtain ⟨hwf, -, req, hq, ⟨hd, rfl⟩ | ⟨⟨hd, hf⟩, rfl⟩ | ⟨⟨hd, hf⟩, rfl⟩⟩ :=
      step_busy_cases busy hrst h
    · exact step_pending (s.setOperands r x y z) req hwf hrst (hreq.trans hq) hd
    · exact step_fail (s.setOperands r x y z) req hwf hrst (hreq.trans hq) hd hf
    · rw [step_answer (s.setOperands r x y z) req hwf hrst (hreq.trans hq) hd hf,
        ← State.onAnswer_setOperands]
      rfl

end Machine

/-- Settles O53: the two states differ by `State.setOperands`, which no answer reads or writes, and
a step of a command other than `Reset` keeps the latches. -/
theorem ignoredFieldsHaveNoEffect : Obligations.IgnoredFieldsHaveNoEffect := by
  intro s1 s2 t1 busy _ hmask hstep
  have hs2 := State.eq_setOperands_of_maskIgnored hmask
  have hreq : s2.request = s1.request := by
    rw [← s2.maskIgnored_request, ← hmask, s1.maskIgnored_request]
  rw [hs2] at hreq hmask ⊢
  refine ⟨_, step_setOperands busy hstep hreq, ?_⟩
  split
  · exact ⟨rfl, rfl, rfl⟩
  next hrst =>
    obtain ⟨hop, -, hreg, ha, hb, hc⟩ := step_latches busy (by simpa using hrst) hstep
    exact ⟨State.maskIgnored_setOperands_congr hop hreg ha hb hc hmask, rfl, rfl⟩

end Sys2Proof
end

section
/-! PROOFS. One sample of a poll (40_poller.md R71 to R79): what it does, first for every state, then
where the counters are inside their limits and do not wrap. -/

namespace Sys2Proof

open Config Machine

/-! ## A configuration that runs -/

section

variable {p : Params} (h : p.wellFormed = true)
include h

theorem Config.Params.constraintsOk_of_wellFormed : p.constraintsOk = true := by
  rw [Params.wellFormed, Bool.and_eq_true] at h
  exact h.1

theorem Config.Params.budget_bounds : 1 ≤ p.pollBudget ∧ p.pollBudget < 2 ^ p.roundsW := by
  obtain ⟨budget, -⟩ := p.constraintsOk_iff.mp (p.constraintsOk_of_wellFormed h)
  exact p.budgetOk_iff.mp budget

theorem Config.Params.limit_bounds : 1 ≤ p.ffLimit ∧ p.ffLimit < 2 ^ p.ffcW := by
  obtain ⟨-, limit, -⟩ := p.constraintsOk_iff.mp (p.constraintsOk_of_wellFormed h)
  exact p.limitOk_iff.mp limit

/-- R5: an absent-device sample is never idle. -/
theorem Config.Params.absent_not_idle (op : Byte) : p.absentByte &&& busyMask p op ≠ 0 := by
  obtain ⟨-, -, -, -, -, absent⟩ := p.constraintsOk_iff.mp (p.constraintsOk_of_wellFormed h)
  obtain ⟨read, write⟩ := p.absentBusy_iff.mp absent
  unfold busyMask
  split
  · exact read
  · exact write

end

namespace Machine

/-! ## The tests of a sample -/

theorem isIdleSample_eq (mask v : Byte) : isIdleSample mask v = decide (v &&& mask = 0) :=
  rfl

theorem isAbsentSample_iff (p : Params) (v : Byte) :
    isAbsentSample p v = true ↔ v = p.absentByte := beq_iff_eq

theorem opensRound_iff (p : Params) (prevIdle : Bool) :
    opensRound p prevIdle = true ↔ p.pairedConfirm = false ∨ prevIdle = false := by
  simp [opensRound]

theorem roundOpen_eq_false_iff (p : Params) (idle : Prop) [Decidable idle] :
    roundOpen p (decide idle) = false ↔ ¬ (p.pairedConfirm = true ∧ idle) := by
  simp [roundOpen]

/-- The poll step is R79 as the statements say it. -/
theorem State.pollStep_eq_pollAnswer (success : State → State) (v : Byte) (u : State) :
    State.pollStep success v u = State.pollAnswer (busyMask u.cfg u.op) success v u := by
  have counted : State.countAbsent v (State.countRound u) =
      { u with
        rounds := if u.cfg.pairedConfirm = false ∨ u.prevIdle = false then
          (u.rounds + 1) % 2 ^ u.cfg.roundsW else u.rounds
        ffc := if v = u.cfg.absentByte then (u.ffc + 1) % 2 ^ u.cfg.ffcW else u.ffc } := by
    simp only [State.countAbsent, State.countRound, isAbsentSample_iff, opensRound_iff,
      counterNext]
  simp only [State.pollStep, counted, State.pollAnswer, Bool.and_eq_true, isAbsentSample_iff,
    isIdleSample_eq, decide_eq_true_eq, beq_iff_eq, Bool.not_eq_true', roundOpen_eq_false_iff]
  rfl

/-! ## Samples inside the limits -/

/-- The state with the sample `v` counted (R74, R75), where no counter wraps. -/
def State.sampled (v : Byte) (u : State) : State :=
  { u with
    rounds := if u.cfg.pairedConfirm = false ∨ u.prevIdle = false then u.rounds + 1 else u.rounds
    ffc := if v = u.cfg.absentByte then u.ffc + 1 else u.ffc }

/-- R72: the sample has the tested busy bit clear. -/
def State.IdleSample (v : Byte) (u : State) : Prop := v &&& busyMask u.cfg u.op = 0

/-- R75: the sample brings the all-ones count to its limit. -/
def State.MeetsLimit (v : Byte) (u : State) : Prop :=
  v = u.cfg.absentByte ∧ u.ffc + 1 = u.cfg.ffLimit

/-- R77: the second of two idle samples. -/
def State.ConfirmsIdle (v : Byte) (u : State) : Prop := u.IdleSample v ∧ u.prevIdle = true

/-- R78: the last sample of the budget, with the round closed. -/
def State.UsesBudget (v : Byte) (u : State) : Prop :=
  (u.cfg.pairedConfirm = false ∧ u.rounds + 1 = u.cfg.pollBudget) ∨
  (u.cfg.pairedConfirm = true ∧ ¬ u.IdleSample v ∧
    u.rounds + (if u.prevIdle then 0 else 1) = u.cfg.pollBudget)

theorem State.meetsLimit_iff (v : Byte) (u : State) :
    u.MeetsLimit v ↔ v = u.cfg.absentByte ∧ (State.sampled v u).ffc = u.cfg.ffLimit := by
  refine and_congr_right fun habsent => ?_
  simp [State.sampled, habsent]

theorem State.usesBudget_iff (v : Byte) (u : State) :
    u.UsesBudget v ↔ (State.sampled v u).rounds = u.cfg.pollBudget ∧
      ¬ (u.cfg.pairedConfirm = true ∧ u.IdleSample v) := by
  cases hp : u.cfg.pairedConfirm <;> cases hi : u.prevIdle <;>
    simp [State.sampled, State.UsesBudget, hp, hi, and_comm]

/-- The poll goes on after the sample `v`. -/
def State.pollOn (v : Byte) (u : State) : State :=
  { State.sampled v u with prevIdle := decide (v &&& busyMask u.cfg u.op = 0) }

section

variable (v : Byte) (u : State)

@[simp] theorem State.sampled_st : (State.sampled v u).st = u.st := rfl
@[simp] theorem State.sampled_ph : (State.sampled v u).ph = u.ph := rfl
@[simp] theorem State.sampled_op : (State.sampled v u).op = u.op := rfl
@[simp] theorem State.sampled_issued : (State.sampled v u).issued = u.issued := rfl
@[simp] theorem State.sampled_resValid : (State.sampled v u).resValid = u.resValid := rfl
@[simp] theorem State.sampled_status : (State.sampled v u).status = u.status := rfl
@[simp] theorem State.sampled_cfg : (State.sampled v u).cfg = u.cfg := rfl
@[simp] theorem State.sampled_host : (State.sampled v u).host = u.host := rfl
@[simp] theorem State.sampled_hostNext : (State.sampled v u).hostNext = u.hostNext := rfl
@[simp] theorem State.sampled_env : (State.sampled v u).env = u.env := rfl
@[simp] theorem State.sampled_trace : (State.sampled v u).trace = u.trace := rfl
@[simp] theorem State.sampled_written : (State.sampled v u).written = u.written := rfl
@[simp] theorem State.sampled_latchedWord : (State.sampled v u).latchedWord = u.latchedWord := rfl
@[simp] theorem State.pollOn_st : (State.pollOn v u).st = u.st := rfl
@[simp] theorem State.pollOn_ph : (State.pollOn v u).ph = u.ph := rfl
@[simp] theorem State.pollOn_op : (State.pollOn v u).op = u.op := rfl
@[simp] theorem State.pollOn_issued : (State.pollOn v u).issued = u.issued := rfl
@[simp] theorem State.pollOn_resValid : (State.pollOn v u).resValid = u.resValid := rfl
@[simp] theorem State.pollOn_status : (State.pollOn v u).status = u.status := rfl
@[simp] theorem State.pollOn_cfg : (State.pollOn v u).cfg = u.cfg := rfl
@[simp] theorem State.pollOn_host : (State.pollOn v u).host = u.host := rfl
@[simp] theorem State.pollOn_hostNext : (State.pollOn v u).hostNext = u.hostNext := rfl
@[simp] theorem State.pollOn_env : (State.pollOn v u).env = u.env := rfl
@[simp] theorem State.pollOn_trace : (State.pollOn v u).trace = u.trace := rfl
@[simp] theorem State.pollOn_written : (State.pollOn v u).written = u.written := rfl
@[simp] theorem State.pollOn_latchedWord : (State.pollOn v u).latchedWord = u.latchedWord := rfl

end

/-! A recorded answer has no part in the tests of its sample. -/

section

variable (v : Byte) (req : Request) (s : State)

@[simp] theorem State.answered_idleSample : (s.answered req).IdleSample v ↔ s.IdleSample v := by
  simp only [State.IdleSample, State.answered_cfg, State.answered_op]

@[simp] theorem State.answered_meetsLimit : (s.answered req).MeetsLimit v ↔ s.MeetsLimit v := by
  simp only [State.MeetsLimit, State.answered_cfg, State.answered_ffc]

@[simp] theorem State.answered_confirmsIdle :
    (s.answered req).ConfirmsIdle v ↔ s.ConfirmsIdle v := by
  simp only [State.ConfirmsIdle, State.answered_idleSample, State.answered_prevIdle]

@[simp] theorem State.answered_usesBudget : (s.answered req).UsesBudget v ↔ s.UsesBudget v := by
  simp only [State.UsesBudget, State.answered_idleSample, State.answered_cfg,
    State.answered_rounds, State.answered_prevIdle]
  rfl

theorem State.CountersOk.answered {s : State} (h : s.CountersOk) : (s.answered req).CountersOk := h

end

section

variable {u : State} (hc : u.CountersOk) (hwf : u.cfg.wellFormed = true) (hst : u.st = .poll)
  (v : Byte)

include hc hst in
/-- A sample keeps both counts within their limits. -/
theorem State.CountersOk.sampled :
    (State.sampled v u).rounds ≤ u.cfg.pollBudget ∧ (State.sampled v u).ffc ≤ u.cfg.ffLimit := by
  obtain ⟨hrounds, -, hpoll⟩ := hc
  obtain ⟨hffc, hopen⟩ := hpoll hst
  constructor <;> simp only [State.sampled] <;> split_ifs with h
  · rcases hopen with hopen | ⟨paired, prev⟩
    · exact hopen
    · simp [paired, prev] at h
  · exact hrounds
  · exact hffc
  · exact hffc.le

include hc hst in
/-- A poll that goes on stays inside the limits. -/
theorem State.CountersOk.pollOn (hlimit : ¬ u.MeetsLimit v) (hbudget : ¬ u.UsesBudget v) :
    (State.pollOn v u).CountersOk := by
  obtain ⟨rounds, ffc⟩ := hc.sampled hst v
  obtain ⟨-, -, hpoll⟩ := hc
  rw [State.meetsLimit_iff] at hlimit
  rw [State.usesBudget_iff] at hbudget
  refine ⟨rounds, ffc, fun _ => ⟨lt_of_le_of_ne ffc fun h => ?_, ?_⟩⟩
  · change (State.sampled v u).ffc = u.cfg.ffLimit at h
    by_cases habsent : v = u.cfg.absentByte
    · exact hlimit ⟨habsent, h⟩
    · rw [State.sampled, if_neg habsent] at h
      exact absurd h (hpoll hst).1.ne
  · change (State.sampled v u).rounds < u.cfg.pollBudget ∨
      (u.cfg.pairedConfirm = true ∧ decide (v &&& busyMask u.cfg u.op = 0) = true)
    refine rounds.lt_or_eq.imp_right fun h => ?_
    rw [decide_eq_true_iff]
    exact not_not.mp fun closed => hbudget ⟨h, closed⟩

include hc hwf hst

theorem State.CountersOk.counted :
    State.countAbsent v (State.countRound u) = State.sampled v u := by
  obtain ⟨rounds, ffc⟩ := hc.sampled hst v
  have hbudget := (Params.budget_bounds hwf).2
  have hlimit := (Params.limit_bounds hwf).2
  simp only [State.sampled] at rounds ffc
  simp only [State.countAbsent, State.countRound, State.sampled, isAbsentSample_iff,
    opensRound_iff]
  congr 1
  · split_ifs with h
    · rw [if_pos h] at rounds
      exact counterNext_of_lt _ _ (by omega)
    · rfl
  · split_ifs with h
    · rw [if_pos h] at ffc
      exact counterNext_of_lt _ _ (by omega)
    · rfl

/-- Everything a sample can do inside the limits. -/
theorem State.CountersOk.pollStep_cases (success : State → State) :
    (u.MeetsLimit v ∧
      State.pollStep success v u = State.raise .deviceUnresponsive (State.sampled v u)) ∨
    (¬ u.MeetsLimit v ∧
      ((u.ConfirmsIdle v ∧ State.pollStep success v u = success (State.sampled v u)) ∨
       (¬ u.ConfirmsIdle v ∧
        ((u.UsesBudget v ∧
            State.pollStep success v u = State.raise .timeout (State.pollOn v u)) ∨
         (¬ u.UsesBudget v ∧ State.pollStep success v u = State.pollOn v u))))) := by
  have cases := State.pollStep_cases success v u
  simp only [hc.counted hwf hst v] at cases
  rw [isAbsentSample_iff] at cases
  simp only [isIdleSample_eq, roundOpen_eq_false_iff, decide_eq_true_iff] at cases
  rw [State.meetsLimit_iff, State.usesBudget_iff]
  obtain ⟨absent, limit, h⟩ | ⟨nlimit, ⟨idle, prev, h⟩ | ⟨nidle, ⟨budget, closed, h⟩ |
    ⟨nbudget, h⟩⟩⟩ :=
    cases
  · exact .inl ⟨⟨absent, limit⟩, h⟩
  · exact .inr ⟨nlimit, .inl ⟨⟨idle, prev⟩, h⟩⟩
  · exact .inr ⟨nlimit, .inr ⟨nidle, .inl ⟨⟨budget, closed⟩, h⟩⟩⟩
  · exact .inr ⟨nlimit, .inr ⟨nidle, .inr ⟨nbudget, h⟩⟩⟩

end

end Machine

end Sys2Proof
end

section
/-! PROOFS. The invariant `State.Inv` (00_scope.md R5, 10_state.md R14 to R18, 20_memory.md R31): it
holds after reset and every step keeps it, and no step is stuck where it holds. -/

namespace Sys2Proof

open Config Machine

namespace Machine

/-! ## The enabled transaction -/

/-- The enabled transaction is one of the register map (R31, R59). -/
theorem State.request_allowed {s : State} {req : Request} (h : s.request = some req) :
    req.allowed s.cfg := by
  obtain ⟨-, legal⟩ := s.request_some_iff.mp ⟨req, h⟩
  rw [s.request_legal legal] at h
  cases hst : s.st <;> simp only [hst] at h <;> cases h
  case poll => rfl
  case sel => exact .inl rfl
  case dat => exact .inr rfl
  case ctl =>
    refine ⟨rfl, ?_⟩
    unfold triggerFlag
    split
    · exact .inl rfl
    · exact .inr (.inl rfl)
  case rd1 => exact .inl rfl
  case rd2 => exact .inr rfl
  case ack => exact ⟨rfl, .inr (.inr rfl)⟩

/-- It is addressed to the latched function. -/
theorem State.request_addr {s : State} {req : Request} (h : s.request = some req) :
    req.addr = s.addr := by
  obtain ⟨-, legal⟩ := s.request_some_iff.mp ⟨req, h⟩
  rw [s.request_legal legal] at h
  cases hst : s.st <;> simp only [hst] at h <;> cases h <;> rfl

/-! ## The records -/

/-- The part of the invariant that speaks of the records. -/
def State.RecordsOk (s : State) : Prop :=
  Memory.wf s.written ∧ ∀ x ∈ s.trace, x.req.allowed s.cfg

theorem State.RecordsOk.record {s : State} (h : s.RecordsOk) {req : Request}
    (hreq : req.allowed s.cfg) (reply : Reply) (lands : Bool) :
    (State.record req reply lands s).RecordsOk := by
  obtain ⟨hwritten, htrace⟩ := h
  refine ⟨?_, fun x hx => ?_⟩
  · rw [State.record_written]
    split
    · exact Memory.writeAll_wf _ _ req.cells_lt hwritten
    · exact hwritten
  · rw [State.record_trace, List.mem_append, List.mem_singleton] at hx
    rcases hx with hx | rfl
    · exact htrace x hx
    · exact hreq

/-- The records of the state that is left after an answer are those with the answer recorded. -/
theorem State.RecordsOk.congr {s t : State} (h : s.RecordsOk) (hwritten : t.written = s.written)
    (htrace : t.trace = s.trace) (hcfg : t.cfg = s.cfg) : t.RecordsOk := by
  rw [State.RecordsOk, hwritten, htrace, hcfg]
  exact h

theorem State.abandonedBytes_wf {s : State} (h : Memory.wf s.written) :
    Memory.wf s.abandonedBytes := by
  unfold State.abandonedBytes
  split
  next req _ =>
    split
    · exact Memory.writeAll_wf _ _ req.cells_lt h
    · exact h
  · exact h

/-! ## The sequencer -/

/-- The part of the invariant that speaks of the sequencer, the result and the counters. -/
def State.SequencerOk (s : State) : Prop :=
  pcLegal s.op s.st s.ph = true ∧ (s.st ≠ .idle → s.resValid = false) ∧ s.IssuedOk ∧ s.CountersOk

theorem State.inv_iff (s : State) :
    s.Inv ↔ s.cfg.wellFormed = true ∧ s.SequencerOk ∧ s.RecordsOk := by
  simp only [State.Inv, State.SequencerOk, State.RecordsOk, and_assoc]

/-- In IDLE only the ranges are left to ask for. -/
theorem State.sequencerOk_of_idle {s : State} (hst : s.st = .idle) (hissued : s.issued.toNat ≤ 2)
    (hrounds : s.rounds ≤ s.cfg.pollBudget) (hffc : s.ffc ≤ s.cfg.ffLimit) : s.SequencerOk :=
  ⟨by rw [hst]; rfl, fun h => absurd hst h, ⟨hissued, fun h => absurd hst h⟩, hrounds, hffc,
    fun h => absurd (hst.symm.trans h) nofun⟩

/-- A poll starts inside its limits (R5, R73). -/
theorem State.enterPoll_countersOk {s : State} (hwf : s.cfg.wellFormed = true) :
    (State.enterPoll s).CountersOk :=
  ⟨Nat.zero_le _, Nat.zero_le _,
    fun _ => ⟨(Params.limit_bounds hwf).1, .inl (Params.budget_bounds hwf).1⟩⟩

/-- At a poll entry of a command that polls, with no result and `issued` its phases. -/
theorem State.sequencerOk_enterPoll {s : State} (hwf : s.cfg.wellFormed = true)
    (hpc : pcLegal s.op .poll s.ph = true) (hres : s.resValid = false)
    (hissued : s.issued = match s.ph with | .one => 0 | .two => 1) :
    (State.enterPoll s).SequencerOk := by
  refine ⟨hpc, fun _ => hres, ⟨?_, fun _ => hissued⟩, State.enterPoll_countersOk hwf⟩
  rw [State.enterPoll_issued, hissued]
  cases s.ph <;> decide

/-- A move inside a command, not to POLL. -/
theorem State.SequencerOk.move {s t : State} (h : s.SequencerOk) (busy : s.st ≠ .idle)
    (hpc : pcLegal t.op t.st t.ph = true) (hpoll : t.st ≠ .poll)
    (hres : t.resValid = s.resValid) (hph : t.ph = s.ph) (hissued : t.issued = s.issued)
    (hcfg : t.cfg = s.cfg) (hrounds : t.rounds ≤ s.cfg.pollBudget) (hffc : t.ffc ≤ s.cfg.ffLimit) :
    t.SequencerOk := by
  obtain ⟨-, result, ⟨range, phases⟩, -⟩ := h
  refine ⟨hpc, fun _ => hres ▸ result busy, ⟨hissued ▸ range, fun _ => ?_⟩, hcfg ▸ hrounds,
    hcfg ▸ hffc, fun hp => absurd hp hpoll⟩
  rw [hissued, hph]
  exact phases busy

section

variable {t : State} (h : t.SequencerOk) (hwf : t.cfg.wellFormed = true)
include h

theorem State.SequencerOk.finish (status : Status) : (State.finish status t).SequencerOk := by
  obtain ⟨-, -, ⟨issued, -⟩, rounds, ffc, -⟩ := h
  exact State.sequencerOk_of_idle rfl issued rounds ffc

include hwf

theorem State.SequencerOk.pollStep (hst : t.st = .poll) (v : Byte) :
    (State.pollStep (if t.op = opWrcmd then State.goto .sel else State.complete) v
      t).SequencerOk := by
  obtain ⟨hpc, hres, hissued, hc⟩ := h
  obtain ⟨rounds, ffc⟩ := hc.sampled hst v
  have busy : t.st ≠ .idle := by rw [hst]; nofun
  obtain ⟨-, e⟩ | ⟨hlimit, ⟨-, e⟩ | ⟨-, ⟨-, e⟩ | ⟨hbudget, e⟩⟩⟩ := hc.pollStep_cases hwf hst v
    (if t.op = opWrcmd then State.goto .sel else State.complete)
  · rw [e]
    exact State.sequencerOk_of_idle rfl hissued.1 rounds ffc
  · rw [e]
    split
    next hop =>
      refine State.SequencerOk.move ⟨hpc, hres, hissued, hc⟩ busy ?_ nofun rfl rfl rfl rfl rounds
        ffc
      change pcLegal t.op .sel t.ph = true
      rw [hop, pcLegal_wrcmd_iff]
      tauto
    · exact State.sequencerOk_of_idle rfl hissued.1 rounds ffc
  · rw [e]
    exact State.sequencerOk_of_idle rfl hissued.1 rounds ffc
  · rw [e]
    exact ⟨hpc, hres, hissued, hc.pollOn hst v hlimit hbudget⟩

/-- After the third write of an issue. -/
theorem State.SequencerOk.issueEnds (hst : t.st = .ctl) :
    (if t.op = opWrcmd then State.phaseEnds (State.countIssue t)
      else State.complete (State.countIssue t)).SequencerOk := by
  obtain ⟨hpc, hres, ⟨-, hissued⟩, rounds, ffc, -⟩ := h
  have busy : t.st ≠ .idle := by rw [hst]; nofun
  have issued := hissued busy
  have complete : (State.complete (State.countIssue t)).SequencerOk := by
    refine State.sequencerOk_of_idle rfl ?_ rounds ffc
    change (t.issued + 1).toNat ≤ 2
    rw [issued]
    cases t.ph <;> decide
  split
  next hop =>
    cases hph : t.ph with
    | one =>
      rw [hph] at issued
      simp only [State.phaseEnds, State.countIssue_ph, hph]
      refine State.sequencerOk_enterPoll hwf ?_ (hres busy) ?_
      · change pcLegal t.op .poll .two = true
        rw [hop, pcLegal_wrcmd_iff]
        tauto
      · change t.issued + 1 = 1
        rw [issued]
        rfl
    | two => simpa only [State.phaseEnds, State.countIssue_ph, hph] using complete
  · exact complete

/-- An answer to the enabled transaction keeps the sequencer's part of the invariant. -/
theorem State.SequencerOk.onAnswer (busy : t.st ≠ .idle) (v : Word) :
    (State.onAnswer t.op t.st v t).SequencerOk := by
  obtain ⟨hpc, -, -, rounds, ffc, -⟩ := id h
  cases hst : t.st with
  | idle => exact absurd hst busy
  | poll => exact h.pollStep hwf hst _
  | ctl => exact h.issueEnds hwf hst
  | ack => exact h.finish .ok
  | sel | dat | rd1 | rd2 =>
    rw [hst] at hpc
    exact h.move busy hpc nofun rfl rfl rfl rfl rounds ffc

end

theorem State.sequencerOk_acceptCommand {s : State} (hwf : s.cfg.wellFormed = true)
    (h : s.SequencerOk) (i : Instr) : (State.acceptCommand i s).SequencerOk := by
  obtain ⟨-, -, -, rounds, ffc, -⟩ := h
  cases i with
  | waitrd | waitwr | wrcmd => exact State.sequencerOk_enterPoll hwf rfl rfl rfl
  | issuerd | issuewr | rdcmd =>
    exact ⟨rfl, fun _ => rfl, ⟨Nat.zero_le _, fun _ => rfl⟩, rounds, ffc, nofun⟩

end Machine

/-- Settles O55: in IDLE only ranges are asked for, and every counter and record is zero or empty. -/
theorem resetMeetsTheInvariant : Obligations.ResetMeetsTheInvariant :=
  (State.inv_iff _).mpr
    ⟨by decide, State.sequencerOk_of_idle rfl (by decide) (by decide) (by decide),
      ⟨.nil, nofun⟩, nofun⟩

/-- Settles O56: part by part. `Reset`, the waits and `Accept` touch no record; an answer is recorded
once, as the enabled transaction, and then processed. -/
theorem everyStepKeepsTheInvariant : Obligations.EveryStepKeepsTheInvariant := by
  intro s t hinv hstep
  obtain ⟨hwf, hseq, hrec⟩ := s.inv_iff.mp hinv
  obtain ⟨-, -, hissued, hrounds, hffc, -⟩ := id hseq
  refine t.inv_iff.mpr ⟨(step_cfg hstep).symm ▸ hwf, ?_⟩
  obtain ⟨-, ⟨-, rfl⟩ | ⟨-, ⟨idle, -, rfl⟩ | ⟨idle, -, -, rfl⟩ | ⟨idle, -, i, -, rfl⟩ |
    ⟨busy, legal, req, hq, ⟨-, rfl⟩ | ⟨-, -, rfl⟩ | ⟨-, -, rfl⟩⟩⟩⟩ := step_cases s t hstep
  · exact ⟨State.sequencerOk_of_idle rfl (Nat.zero_le _) (Nat.zero_le _) (Nat.zero_le _),
      State.abandonedBytes_wf hrec.1, hrec.2⟩
  · exact ⟨hseq, hrec⟩
  · exact ⟨State.sequencerOk_of_idle rfl (Nat.zero_le _) hrounds hffc, hrec⟩
  · refine ⟨State.sequencerOk_acceptCommand hwf hseq i, ?_⟩
    cases i <;> exact hrec
  · exact ⟨hseq, hrec⟩
  all_goals have recorded := State.RecordsOk.record (s := s.ticked) hrec (State.request_allowed hq)
  · exact ⟨State.SequencerOk.finish hseq .accessFailure, recorded _ _⟩
  · have answered : (s.answered req).SequencerOk := hseq
    exact ⟨answered.onAnswer hwf busy _,
      (recorded _ true).congr (State.onAnswer_written ..) (State.onAnswer_trace ..)
        (State.onAnswer_cfg ..)⟩

end Sys2Proof
end

section
/-! PROOFS. `Reset`, `Accept` and the result (10_state.md R18, R24 to R26, 30_encoding.md R51,
60_exceptions.md R128): the events that are no transaction, and which word a command runs from. -/

namespace Sys2Proof

open Config Machine

/-! ## Reset -/

namespace Machine

/-- Where nothing is outstanding `Reset` leaves the bytes written. -/
theorem State.abandonedBytes_of_none {s : State} (h : s.request = none) :
    s.abandonedBytes = s.written := by
  simp only [State.abandonedBytes, h]

theorem State.abandonedBytes_of_some {s : State} {req : Request} (h : s.request = some req) :
    s.abandonedBytes =
      if s.accPort.reached then Memory.writeAll s.written req.cells else s.written := by
  simp only [State.abandonedBytes, h]

end Machine

/-- Settles O7: the step is `State.resetEvent`. -/
theorem resetSetsEveryElement : Obligations.ResetSetsEveryElement := fun s hcfg hrst _ _ =>
  ⟨_, step_reset s hcfg hrst, rfl, rfl, rfl, rfl, rfl, rfl, rfl, rfl, rfl, rfl, rfl, rfl, rfl, rfl,
    rfl, rfl, rfl, rfl, rfl, rfl, rfl, State.abandonedBytes_of_none,
    fun _ => State.abandonedBytes_of_some⟩

/-- Settles O8: `Reset` reads of the host only what comes next, and of the accessor's answer only
whether an abandoned write reached the device. -/
theorem resetWinsOverOfferAndAnswer : Obligations.ResetWinsOverOfferAndAnswer := by
  intro s valid cw p q rest hcfg hrst henv hreached
  let s' : State := { s with host := ⟨true, valid, cw⟩, env := q :: rest }
  have hrequest : s'.request = s.request := rfl
  have hlands : s'.accPort.reached = s.accPort.reached := by
    rw [s.accPort_cons p rest henv]
    exact hreached
  have hwritten : s'.abandonedBytes = s.abandonedBytes := by
    rw [State.abandonedBytes, hrequest, hlands]
    rfl
  refine ⟨_, _, step_reset s hcfg hrst, step_reset s' hcfg rfl, ?_⟩
  rw [State.resetEvent, State.resetEvent, hwritten]

/-! ## Accept -/

namespace Machine

/-- The word in the latches has the latches as its fields. -/
theorem State.latches_of_latchedWord {t : State} {cw : CmdWord} (h : t.latchedWord = cw) :
    t.op = opField cw ∧ t.addr = addrField cw ∧ t.reg = regField cw ∧
      t.a = aField cw ∧ t.b = bField cw ∧ t.c = cField cw := by
  subst h
  simp [State.latchedWord]

theorem State.acceptIllegal_latchedWord (cw : CmdWord) (s : State) :
    (State.acceptIllegal cw s).latchedWord = cw := packWord_fields cw

/-- A step of a command other than `Reset` keeps the latched word. -/
theorem step_latchedWord {s t : State} (busy : s.st ≠ .idle) (hrst : s.host.rst = false)
    (h : step s = .next t) : t.latchedWord = s.latchedWord := by
  obtain ⟨hop, haddr, hreg, ha, hb, hc⟩ := step_latches busy hrst h
  rw [State.latchedWord, hop, haddr, hreg, ha, hb, hc]
  rfl

end Machine

/-- Settles O9: `Accept` latches the encoding of the decoded word, which is that word; of a reserved
word it latches the fields, which make up that word. -/
theorem acceptLatchesTheWholeWord : Obligations.AcceptLatchesTheWholeWord := by
  intro s t idle hrst hvalid hstep
  have latched : t.latchedWord = s.host.cmdWord := by
    obtain ⟨-, ⟨reset, -⟩ | ⟨-, ⟨-, quiet, -⟩ | ⟨-, -, -, rfl⟩ | ⟨-, -, i, hi, rfl⟩ |
      ⟨busy, -⟩⟩⟩ := step_cases s t hstep
    · exact absurd reset (by simp [hrst])
    · exact absurd quiet (by simp [hvalid])
    · exact State.acceptIllegal_latchedWord _ s
    · rw [State.acceptCommand_latchedWord, encodeOfDecodeIsIdentity _ i hi]
    · exact absurd idle busy
  obtain ⟨hop, haddr, hreg, ha, hb, hc⟩ := State.latches_of_latchedWord latched
  exact ⟨hop, haddr, hreg, ha, hb, hc, latched⟩

/-- Settles O10: in IDLE `exec` is `State.acceptCommand`. -/
theorem acceptOfEachCommand : Obligations.AcceptOfEachCommand :=
  fun s _ _ _ _ _ _ _ _ idle =>
    ⟨exec_idle _ s idle, exec_idle _ s idle, exec_idle _ s idle, exec_idle _ s idle,
      exec_idle _ s idle, exec_idle _ s idle⟩

/-- Settles O13: the step is the wait in IDLE. -/
theorem idleWithoutOfferChangesNothing : Obligations.IdleWithoutOfferChangesNothing :=
  fun s hcfg idle hrst hvalid => ⟨_, step_wait s hcfg hrst idle hvalid, rfl, rfl⟩

/-- Settles O15: in IDLE both sides are `Accept`, in a command both are the answer to the enabled
transaction. -/
theorem stepRunsTheDecodedInstruction : Obligations.StepRunsTheDecodedInstruction := by
  intro s i hcfg hrst hvalid hdecode
  by_cases idle : s.st = .idle
  · rw [s.currentWord_idle idle] at hdecode
    rw [step_accept s i hcfg hrst idle (hvalid idle) hdecode, exec_idle i s idle]
  · rw [s.currentWord_busy idle] at hdecode
    have hop := decode_ok_opcode _ i hdecode
    rw [s.opField_latchedWord] at hop
    rw [step_busy s hcfg hrst idle, exec_busy i s idle hop.symm]

/-- Settles O16: `Accept` of `i` latches the encoding of `i`, and later steps keep the latches. -/
theorem acceptedInstructionStaysCurrent : Obligations.AcceptedInstructionStaysCurrent := by
  constructor
  · intro s t i idle hexec
    rw [exec_idle i s idle] at hexec
    cases hexec
    have busy := State.acceptCommand_busy i s
    refine ⟨busy, ?_⟩
    rw [State.currentWord_busy _ busy, State.acceptCommand_latchedWord, decodeOfEncodeIsIdentity i]
  · intro s t busy hrst hstep busy'
    rw [t.currentWord_busy busy', s.currentWord_busy busy, step_latchedWord busy hrst hstep]

/-- Settles O54: `Accept` loads or clears every field that the statement does not except, and it
clears the poll state where it enters POLL. -/
theorem nothingCarriesOverToTheNextCommand : Obligations.NothingCarriesOverToTheNextCommand := by
  rintro s1 s2 t1 i ⟨hwf, idle1, ⟨hrst, -⟩, hvalid, hdecode⟩ idle2 hcfg hhost hnext henv hdraws
    htrace hwritten hstep
  rw [step_accept s1 i hwf hrst idle1 hvalid hdecode] at hstep
  cases hstep
  refine ⟨_, step_accept s2 i (hcfg ▸ hwf) (hhost ▸ hrst) idle2 (hhost ▸ hvalid)
    (hhost ▸ hdecode), ?_⟩
  have taken : s2.nextHost true = s1.nextHost true := by
    rw [State.nextHost, State.nextHost, hhost, hnext]
  cases i <;>
    simp [State.acceptCommand, State.enterPoll, State.goto, State.accept, State.advanceHost, hcfg,
      taken, hnext, henv, hdraws, htrace, hwritten]

/-! ## A command in progress and the host -/

/-- Settles O17: the host's port is part of the context that no answer reads. -/
theorem offerWhileBusyHasNoEffect : Obligations.OfferWhileBusyHasNoEffect := by
  intro s t valid cw busy hrst hstep
  let s' : State := { s with host := ⟨false, valid, cw⟩ }
  obtain ⟨hwf, -, req, hq, ⟨hd, rfl⟩ | ⟨⟨hd, hf⟩, rfl⟩ | ⟨⟨hd, hf⟩, rfl⟩⟩ :=
    step_busy_cases busy hrst hstep
  · exact ⟨_, step_pending s' req hwf rfl hq hd, rfl⟩
  · exact ⟨_, step_fail s' req hwf rfl hq hd hf, rfl⟩
  · have blind := State.onAnswer_withContext s.op s.st s.accPort.rdata (s'.answered req)
      (s.answered req)
    refine ⟨_, (step_answer s' req hwf rfl hq hd hf).trans (congrArg _ blind), ?_⟩
    obtain ⟨_, _, _, _, _, _, _, _, _, _, frame⟩ :=
      State.onAnswer_frame s.op s.st s.accPort.rdata (s.answered req)
    rw [frame]
    rfl

/-! ## The result -/

/-- Settles O39: both are `State.finish` with a status. -/
theorem raiseSetsThreeElements : Obligations.RaiseSetsThreeElements :=
  fun _ _ => ⟨rfl, rfl, rfl, rfl, rfl, rfl, rfl⟩

/-- Settles O41, for a result with data words and for one without. -/
theorem dataOnlyAfterSuccessfulRdcmd : Obligations.DataOnlyAfterSuccessfulRdcmd := by
  intro s r h
  by_cases hvalid : s.resValid = true
  · simp only [State.result, if_pos hvalid, Option.some.injEq] at h
    subst h
    by_cases hdata : s.op = opRdcmd ∧ s.status = .ok
    · simp [hdata]
    · simp [hdata]
  · simp [State.result, hvalid] at h

end Sys2Proof
end

section
/-! PROOFS. The accessor port and the frames (10_state.md R14, R23, 20_memory.md R31 to R36, R47):
which transaction is enabled, what a step records of it, and what a step leaves unchanged. -/

namespace Sys2Proof

open Config Machine

/-! ## The enabled transaction and its signals -/

/-- Settles O44: R14's table, state by state. -/
theorem enabledTransactionOfEachState : Obligations.EnabledTransactionOfEachState := by
  intro s legal
  rw [s.request_legal legal]
  refine ⟨?_, ?_, ?_, ?_, ?_, ?_, ?_, ?_⟩ <;> intro hst <;> rw [hst]
  exact ⟨_, rfl, rfl⟩

/-- Settles O45. -/
theorem requestsStayInTheRegisterMap : Obligations.RequestsStayInTheRegisterMap :=
  fun s req h => ⟨State.request_allowed h, State.request_addr h, (s.request_some_iff.mp ⟨req, h⟩).1⟩

/-- A byte has no bits above 7. -/
theorem extractLsb'_above_byte (b : Byte) : (b.setWidth 32).extractLsb' 8 24 = 0 := by
  rw [BitVec.extractLsb'_setWidth_of_le (by decide)]
  refine BitVec.eq_of_toNat_eq ?_
  rw [BitVec.extractLsb'_toNat, Nat.shiftRight_eq_zero b.toNat 8 b.isLt]
  rfl

/-- Settles O46: the signals are functions of the enabled transaction, and the value of an 8-bit
write is one of the bytes of R59. -/
theorem portsShowTheRequest : Obligations.PortsShowTheRequest := by
  refine fun s => ⟨beq_iff_eq, by simp [State.accValid], fun size addr off h => ?_,
    fun size addr off v h => ?_⟩
  · have haddr : addr = s.addr := State.request_addr h
    cases size <;>
      simp [State.accWrite, State.accSize, State.accAddr, State.accOff, State.accWdata, h, haddr]
  · have haddr : addr = s.addr := State.request_addr h
    have byte (hsize : size = .byte) : v.extractLsb' 8 24 = 0 := by
      subst hsize
      obtain ⟨-, rfl | rfl | rfl⟩ := State.request_allowed h <;> exact extractLsb'_above_byte _
    cases size <;>
      simp [State.accWrite, State.accSize, State.accAddr, State.accOff, State.accWdata, h, haddr,
        byte]

/-- Settles O47: of the steps, only an answered one adds to the trace. -/
theorem stepRecordsTheEnabledTransaction : Obligations.StepRecordsTheEnabledTransaction := by
  intro s t hstep
  obtain ⟨-, ⟨hrst, rfl⟩ | ⟨hrst, ⟨idle, -, rfl⟩ | ⟨idle, -, -, rfl⟩ | ⟨idle, -, i, -, rfl⟩ |
    ⟨-, -, req, hq, ⟨hd, rfl⟩ | ⟨hd, hf, rfl⟩ | ⟨hd, hf, rfl⟩⟩⟩⟩ := step_cases s t hstep
  · exact .inl ⟨rfl, .inr (.inl hrst)⟩
  · exact .inl ⟨rfl, .inl idle⟩
  · exact .inl ⟨rfl, .inl idle⟩
  · exact .inl ⟨State.acceptCommand_trace i s, .inl idle⟩
  · exact .inl ⟨rfl, .inr (.inr hd)⟩
  · exact .inr ⟨hrst, req, hq, .inr ⟨⟨hd, hf⟩, rfl⟩⟩
  · exact .inr ⟨hrst, req, hq, .inl ⟨⟨hd, hf⟩, State.onAnswer_trace ..⟩⟩

/-! ## Latches -/

/-- Settles O48: a wait in IDLE and every step of a command keep the latches. -/
theorem latchesChangeOnlyAtAccept : Obligations.LatchesChangeOnlyAtAccept := by
  refine fun s t hstep => ⟨step_cfg hstep, fun hrst hcase => ?_⟩
  by_cases idle : s.st = .idle
  · have quiet := hcase.resolve_left (not_not.mpr idle)
    rw [step_wait s (step_cases s t hstep).1 hrst idle quiet] at hstep
    cases hstep
    exact ⟨rfl, rfl, rfl, rfl, rfl, rfl, rfl⟩
  · exact ⟨step_latchedWord idle hrst hstep, step_latches idle hrst hstep⟩

namespace Machine

section

variable (op : Byte) (x : St) (v : Word) (t : State)

theorem State.onAnswer_d1 : (State.onAnswer op x v t).d1 = if x = .rd1 then v else t.d1 := by
  cases x with
  | idle | sel | dat | rd1 | rd2 | ack => rfl
  | poll =>
    obtain ⟨_, _, _, _, _, _, frame⟩ := State.pollStep_frame op t (v.extractLsb' 0 8)
    rw [State.onAnswer, frame, if_neg nofun]
  | ctl =>
    obtain ⟨_, _, _, _, _, _, _, frame⟩ := State.issueEnds_frame op t
    rw [State.onAnswer, frame, if_neg nofun]

theorem State.onAnswer_d2 : (State.onAnswer op x v t).d2 = if x = .rd2 then v else t.d2 := by
  cases x with
  | idle | sel | dat | rd1 | rd2 | ack => rfl
  | poll =>
    obtain ⟨_, _, _, _, _, _, frame⟩ := State.pollStep_frame op t (v.extractLsb' 0 8)
    rw [State.onAnswer, frame, if_neg nofun]
  | ctl =>
    obtain ⟨_, _, _, _, _, _, _, frame⟩ := State.issueEnds_frame op t
    rw [State.onAnswer, frame, if_neg nofun]

theorem State.onAnswer_issued :
    (State.onAnswer op x v t).issued = if x = .ctl then t.issued + 1 else t.issued := by
  cases x with
  | idle | sel | dat | rd1 | rd2 | ack => rfl
  | poll =>
    obtain ⟨_, _, _, _, _, _, frame⟩ := State.pollStep_frame op t (v.extractLsb' 0 8)
    rw [State.onAnswer, frame, if_neg nofun]
  | ctl =>
    obtain ⟨_, _, _, _, _, _, _, frame⟩ := State.issueEnds_frame op t
    rw [State.onAnswer, frame, if_pos rfl]

end

/-- The two reads are RDCMD's alone (R15). -/
theorem op_of_read {op : Byte} {st : St} {ph : Phase} (h : pcLegal op st ph = true)
    (hst : st = .rd1 ∨ st = .rd2) : op = opRdcmd := by
  obtain rfl | rfl := hst <;> simp only [pcLegal, Bool.and_eq_true, beq_iff_eq] at h <;> exact h.2

end Machine

/-- Settles O42: of the steps, only an answer can write a result latch. -/
theorem onlyRdcmdWritesTheResultLatches : Obligations.OnlyRdcmdWritesTheResultLatches := by
  intro s t hstep hrst
  obtain ⟨-, ⟨reset, -⟩ | ⟨-, ⟨-, -, rfl⟩ | ⟨-, -, -, rfl⟩ | ⟨-, -, i, -, rfl⟩ |
    ⟨-, legal, req, -, ⟨-, rfl⟩ | ⟨-, -, rfl⟩ | ⟨hd, hf, rfl⟩⟩⟩⟩ := step_cases s t hstep
  · exact absurd reset (by simp [hrst])
  · exact ⟨absurd rfl, absurd rfl⟩
  · exact ⟨absurd rfl, absurd rfl⟩
  · exact ⟨absurd (State.acceptCommand_d1 i s), absurd (State.acceptCommand_d2 i s)⟩
  · exact ⟨absurd rfl, absurd rfl⟩
  · exact ⟨absurd rfl, absurd rfl⟩
  · rw [State.onAnswer_d1, State.onAnswer_d2]
    constructor <;> intro hne
    · split_ifs at hne ⊢ with hst
      · exact ⟨hst, op_of_read legal (.inl hst), ⟨hd, hf⟩, rfl⟩
      · exact absurd rfl hne
    · split_ifs at hne ⊢ with hst
      · exact ⟨hst, op_of_read legal (.inr hst), ⟨hd, hf⟩, rfl⟩
      · exact absurd rfl hne

/-- Settles O43: of the steps, `Accept` clears `issued`, and an answer counts in CTL. -/
theorem issuedCountsAnsweredTriggers : Obligations.IssuedCountsAnsweredTriggers := by
  intro s t hstep hrst hne
  obtain ⟨-, ⟨reset, -⟩ | ⟨-, ⟨-, -, rfl⟩ | ⟨idle, offer, -, rfl⟩ | ⟨idle, offer, i, -, rfl⟩ |
    ⟨-, legal, req, -, ⟨-, rfl⟩ | ⟨-, -, rfl⟩ | ⟨hd, hf, rfl⟩⟩⟩⟩ := step_cases s t hstep
  · exact absurd reset (by simp [hrst])
  · exact absurd rfl hne
  · exact .inl ⟨idle, offer, rfl⟩
  · exact .inl ⟨idle, offer, State.acceptCommand_issued i s⟩
  · exact absurd rfl hne
  · exact absurd rfl hne
  · rw [State.onAnswer_issued] at hne ⊢
    split_ifs at hne ⊢ with hst
    · exact .inr ⟨hst, ⟨hd, hf⟩, rfl⟩
    · exact absurd rfl hne

/-! ## The bytes written -/

namespace Machine

/-- The only bytes a step can write are those of the enabled transaction, and only where it is
answered or abandoned. -/
theorem step_written {s t : State} (h : step s = .next t) :
    t.written = s.written ∨ ∃ req, s.request = some req ∧
      (s.host.rst = true ∨ s.accPort.done = true) ∧
      t.written = Memory.writeAll s.written req.cells := by
  obtain ⟨-, ⟨hrst, rfl⟩ | ⟨-, ⟨-, -, rfl⟩ | ⟨-, -, -, rfl⟩ | ⟨-, -, i, -, rfl⟩ |
    ⟨-, -, req, hq, ⟨-, rfl⟩ | ⟨hd, -, rfl⟩ | ⟨hd, -, rfl⟩⟩⟩⟩ := step_cases s t h
  · rw [State.resetEvent_written]
    cases hq : s.request with
    | none => exact .inl (State.abandonedBytes_of_none hq)
    | some req =>
      rw [State.abandonedBytes_of_some hq]
      split
      · exact .inr ⟨req, rfl, .inl hrst, rfl⟩
      · exact .inl rfl
  · exact .inl rfl
  · exact .inl rfl
  · exact .inl (State.acceptCommand_written i s)
  · exact .inl rfl
  · rw [State.raise_written, State.record_written]
    split
    · exact .inr ⟨req, hq, .inr hd, rfl⟩
    · exact .inl rfl
  · exact .inr ⟨req, hq, .inr hd, State.onAnswer_written ..⟩

/-- Of bytes written at different keys each one stays. -/
theorem Memory.read_writeAll_of_mem (cs m : Memory) (hcs : cs.Pairwise fun x y => x.1 ≠ y.1)
    {k : Nat} {v : Byte} (h : (k, v) ∈ cs) : Memory.read (Memory.writeAll m cs) k = some v := by
  induction cs generalizing m with
  | nil => cases h
  | cons c cs ih =>
    obtain ⟨hc, hcs⟩ := List.pairwise_cons.mp hcs
    rw [Memory.writeAll_cons]
    rcases List.mem_cons.mp h with rfl | h
    · rw [Memory.read_writeAll_other _ _ _ fun x hx => (hc x hx).symm, Memory.read_write_same]
    · exact ih _ hcs h

/-- The bytes of a 32-bit value, where it does not wrap inside its function's space. -/
theorem accessCells_word (addr : BitVec ADDR_W) (off : Byte) (v : Word) (h : off.toNat + 3 < 256) :
    accessCells .word addr off v =
      [0, 1, 2, 3].map fun k =>
        (addr.toNat * 256 + off.toNat + k, v.extractLsb' (8 * k) 8) := by
  have add (d : Byte) (hd : d.toNat ≤ 3) := cellKey_add addr off d (by omega)
  simp only [accessCells, cellKey_eq addr off, add 1 (by decide), add 2 (by decide),
    add 3 (by decide)]
  simp

end Machine

/-- Settles O49. -/
theorem onlyStoredBytesChange : Obligations.OnlyStoredBytesChange := by
  intro s t hstep
  obtain same | ⟨req, hq, event, written⟩ := step_written hstep
  · exact ⟨fun _ _ _ _ => by rw [same], fun _ => same, fun _ _ => same, fun _ _ _ _ => same⟩
  · refine ⟨fun req' k hq' outside => ?_, fun none => ?_, fun hrst hdone => ?_,
      fun size addr off read => ?_⟩
    · cases hq.symm.trans hq'
      rw [written, Memory.read_writeAll_other _ _ _ outside]
    · cases hq.symm.trans none
    · simp [hrst, hdone] at event
    · cases hq.symm.trans read
      rw [written]
      rfl

/-- Settles O50: the answer stores the bytes of the value at different keys. -/
theorem answeredWriteStoresItsBytes : Obligations.AnsweredWriteStoresItsBytes := by
  rintro s t addr off v hstep hrst ⟨hd, hf⟩
  have hwf := (step_cases s t hstep).1
  have stored {req : Request} (hq : s.request = some req) :
      t.written = Memory.writeAll s.written req.cells := by
    rw [step_answer s req hwf hrst hq hd hf] at hstep
    cases hstep
    exact State.onAnswer_written ..
  constructor
  · intro hq hoff k hk
    rw [stored hq, Request.cells, accessCells_word addr off v hoff]
    refine Memory.read_writeAll_of_mem _ _ ?_ (List.mem_map.mpr ⟨k, ?_, rfl⟩)
    · have nodup : [0, 1, 2, 3].Nodup := by decide
      exact List.pairwise_map.mpr (nodup.imp fun hne heq => hne (Nat.add_left_cancel heq))
    · simp only [List.mem_cons, List.not_mem_nil, or_false]
      omega
  · intro hq
    rw [stored hq, Request.cells, accessCells, cellKey_eq]
    exact Memory.read_write_same _ _ _

/-- Settles O51: `reached` has no part in the next state but for the bytes written. -/
theorem failedWriteLeavesBothOutcomes : Obligations.FailedWriteLeavesBothOutcomes := by
  intro s t req p rest hrst hq hd hf henv hstep
  have hwf := (step_cases s t hstep).1
  have hport := s.accPort_cons p rest henv
  rw [step_fail s req hwf hrst hq (hport ▸ hd) (hport ▸ hf)] at hstep
  cases hstep
  rw [hport]
  refine ⟨rfl, fun q hqd hqf => ?_⟩
  refine ⟨_, step_fail { s with env := q :: rest } req hwf hrst hq hqd hqf, ?_⟩
  simp only [State.ticked, State.advanceEnv, State.advanceHost, henv]
  rfl

/-- Settles O52: the step is `State.ticked`. -/
theorem unansweredTransactionWaits : Obligations.UnansweredTransactionWaits := by
  rintro s ⟨hwf, legal, -⟩ hrst busy hd
  obtain ⟨req, hq⟩ := s.request_some_iff.mpr ⟨busy, legal⟩
  exact ⟨_, step_pending s req hwf hrst hq hd, rfl⟩

end Sys2Proof
end

section
/-! PROOFS. Each answered transaction of each command (40_poller.md R79 to R81, 41_issuer.md R91 to
R93, 42_sequences.md R102, R106): `exec` as one exact next state. -/

namespace Sys2Proof

open Config Machine

namespace Machine

/-- `exec` of the command in progress, where its enabled transaction is answered. -/
theorem exec_answered {s : State} {i : Instr} {req : Request} (hop : s.op = i.opcode)
    (hq : s.request = some req) (hok : s.AnswersOk) :
    exec i s = .next (State.onAnswer s.op s.st s.accPort.rdata (s.answered req)) := by
  obtain ⟨hd, hf⟩ := hok
  rw [exec_busy i s (s.request_some_iff.mp ⟨req, hq⟩).1 hop, State.transact_some _ s req hq,
    State.access_ok req _ s hd hf]
  rfl

theorem State.request_poll {s : State} (hst : s.st = .poll) (hpc : pcLegal s.op .poll s.ph = true) :
    s.request = some (.read .byte s.addr s.cfg.ctrlOff) := by
  rw [s.request_legal (hst ▸ hpc), hst]

/-- A sample of the command in progress is R79's poll step on the state with the answer recorded. -/
theorem exec_sample {s : State} {i : Instr} (hop : s.op = i.opcode) (hst : s.st = .poll)
    (hpc : pcLegal s.op .poll s.ph = true) (hok : s.AnswersOk) :
    exec i s = .next (State.pollAnswer (busyMask s.cfg s.op)
      (if s.op = opWrcmd then State.goto .sel else State.complete) s.sample
      (s.answered (.read .byte s.addr s.cfg.ctrlOff))) := by
  rw [exec_answered hop (State.request_poll hst hpc) hok, hst, State.onAnswer,
    State.pollStep_eq_pollAnswer]
  rfl

theorem State.phaseEnds_one {s : State} (h : s.ph = .one) :
    State.phaseEnds s = State.enterPoll { s with ph := .two } := by
  simp only [State.phaseEnds, h]

theorem State.phaseEnds_two {s : State} (h : s.ph = .two) :
    State.phaseEnds s = State.complete s := by
  simp only [State.phaseEnds, h]

/-- The writes of phase 1 from the latches (R101, R102). -/
theorem State.phaseWrites_one (s : State) :
    phaseWrites s.cfg s.latchedWord .one =
      issueWrites s.cfg s.addr (s.reg.setWidth 32) s.a s.cfg.writeBusy := by
  simp [phaseWrites, State.latchedWord]

/-- The writes of phase 2 from the latches (R102). -/
theorem State.phaseWrites_two (s : State) :
    phaseWrites s.cfg s.latchedWord .two = issueWrites s.cfg s.addr s.b s.c s.cfg.writeBusy := by
  simp [phaseWrites, State.latchedWord]

end Machine

/-- Settles O18: `op` decides the mask. -/
theorem waitSample : Obligations.WaitSample := by
  intro s d r x y z hst hph hok completeOk u
  constructor <;> intro hop
  · rw [exec_sample hop hst (by rw [hop, hph]; rfl) hok, hop]
    rfl
  · rw [exec_sample hop hst (by rw [hop, hph]; rfl) hok, hop]
    rfl

/-- Settles O19. -/
theorem wrcmdSample : Obligations.WrcmdSample := by
  intro s d b0 b1 b2 x y z hst hop hok
  rw [exec_sample hop hst (by rw [hop, pcLegal_wrcmd_iff]; tauto) hok, hop]
  rfl

/-- Settles O28: the two commands differ in the trigger flag. -/
theorem issueWrites : Obligations.IssueWrites := by
  intro s d x y r z i flag hi hop hph hok
  have issuing : s.op = opIssuerd ∨ s.op = opIssuewr := by
    obtain ⟨rfl, -⟩ | ⟨rfl, -⟩ := hi
    · exact .inl hop
    · exact .inr hop
  have legal (hst : s.st = .sel ∨ s.st = .dat ∨ s.st = .ctl) : pcLegal s.op s.st s.ph = true := by
    obtain hst | hst | hst := hst <;> simpa [pcLegal, hst, hph] using .inl issuing
  have notWrcmd : s.op ≠ opWrcmd := by
    obtain h | h := issuing <;> rw [h] <;> decide
  have hflag : triggerFlag s.cfg s.op = flag := by
    obtain ⟨rfl, rfl⟩ | ⟨rfl, rfl⟩ := hi <;> rw [hop] <;> rfl
  refine ⟨fun hst => ?_, fun hst => ?_, fun hst => ?_⟩
  · have hq := s.request_legal (legal (.inl hst))
    rw [hst, State.selector, if_neg notWrcmd] at hq
    rw [exec_answered hop hq hok, hst]
    rfl
  · have hq := s.request_legal (legal (.inr (.inl hst)))
    rw [hst, State.dataWord, if_neg notWrcmd] at hq
    rw [exec_answered hop hq hok, hst]
    rfl
  · have hq := s.request_legal (legal (.inr (.inr hst)))
    rw [hst, hflag] at hq
    rw [exec_answered hop hq hok, hst, State.onAnswer, if_neg notWrcmd]
    rfl

/-- Settles O30: the enabled write is the next one of its phase, and the third of phase 1 enters
POLL. -/
theorem wrcmdWrites : Obligations.WrcmdWrites := by
  intro s d b0 b1 b2 x y z hop hok i trigger
  have answered {req : Request} (hst : s.st = .sel ∨ s.st = .dat ∨ s.st = .ctl)
      (hreq : (phaseWrites s.cfg s.latchedWord s.ph)[writesMade s.st]? = some req) :
      exec i s = .next (State.onAnswer s.op s.st s.accPort.rdata (s.answered req)) :=
    exec_answered hop ((s.request_wrcmd_write hop hst).trans hreq) hok
  refine ⟨fun hph hst => ?_, fun hph hst => ?_, fun hph hst => ?_, fun hph hst => ?_,
    fun hph hst => ?_, fun hph hst => ?_⟩
  · rw [answered (.inl hst) (by rw [hph, hst, s.phaseWrites_one]; rfl), hst]
    rfl
  · rw [answered (.inr (.inl hst)) (by rw [hph, hst, s.phaseWrites_one]; rfl), hst]
    rfl
  · rw [answered (.inr (.inr hst)) (by rw [hph, hst, s.phaseWrites_one]; rfl), hst,
      State.onAnswer, if_pos hop, State.phaseEnds_one]
    · rfl
    · exact hph
  · rw [answered (.inl hst) (by rw [hph, hst, s.phaseWrites_two]; rfl), hst]
    rfl
  · rw [answered (.inr (.inl hst)) (by rw [hph, hst, s.phaseWrites_two]; rfl), hst]
    rfl
  · rw [answered (.inr (.inr hst)) (by rw [hph, hst, s.phaseWrites_two]; rfl), hst,
      State.onAnswer, if_pos hop, State.phaseEnds_two]
    · rfl
    · exact hph

/-- Settles O32. -/
theorem rdcmdTransactions : Obligations.RdcmdTransactions := by
  intro s d r x y z hop hph hok
  refine ⟨fun hst => ?_, fun hst => ?_, fun hst => ?_⟩
  all_goals
    have hq := s.request_legal (by rw [hop, hph, hst]; rfl)
    rw [hst] at hq
    rw [exec_answered hop hq hok, hst]
    rfl

end Sys2Proof
end

section
/-! PROOFS. How a step of a command ends (40_poller.md R74 to R78, 60_exceptions.md R123, R124, R127,
10_state.md R25): which sample ends a poll, with which status, and what `PAIRED_CONFIRM` changes. -/

namespace Sys2Proof

open Config Machine

namespace Machine

/-! ## Answers outside POLL -/

/-- An answer outside POLL leaves the command in progress, or ends it with OK and a result. -/
theorem State.onAnswer_end_ok {op : Byte} {x : St} (hidle : x ≠ .idle) (hpoll : x ≠ .poll)
    (v : Word)
    (t : State) :
    ((State.onAnswer op x v t).st ≠ .idle ∧ (State.onAnswer op x v t).resValid = t.resValid) ∨
    ((State.onAnswer op x v t).st = .idle ∧ (State.onAnswer op x v t).resValid = true ∧
      (State.onAnswer op x v t).status = .ok) := by
  cases x with
  | idle => exact absurd rfl hidle
  | poll => exact absurd rfl hpoll
  | sel | dat | rd1 | rd2 => exact .inl ⟨nofun, rfl⟩
  | ack => exact .inr ⟨rfl, rfl, rfl⟩
  | ctl =>
    by_cases hop : op = opWrcmd
    · cases hph : t.ph with
      | one =>
        rw [State.onAnswer, if_pos hop, State.phaseEnds_one (s := State.countIssue t) hph]
        exact .inl ⟨nofun, rfl⟩
      | two =>
        rw [State.onAnswer, if_pos hop, State.phaseEnds_two (s := State.countIssue t) hph]
        exact .inr ⟨rfl, rfl, rfl⟩
    · rw [State.onAnswer, if_neg hop]
      exact .inr ⟨rfl, rfl, rfl⟩

/-! ## A step of a command, by its outcome -/

section

variable {s t : State} (hinv : s.Inv) (hrst : s.host.rst = false) (hstep : step s = .next t)
include hinv hrst hstep

/-- In POLL with an answered sample: what the sample makes of the state with it recorded. -/
theorem step_sample_cases (hst : s.st = .poll) (hok : s.AnswersOk) :
    let u := s.answered (.read .byte s.addr s.cfg.ctrlOff)
    (s.MeetsLimit s.sample ∧ t = State.raise .deviceUnresponsive (State.sampled s.sample u)) ∨
    (¬ s.MeetsLimit s.sample ∧
      ((s.ConfirmsIdle s.sample ∧
          t = (if s.op = opWrcmd then State.goto .sel else State.complete)
            (State.sampled s.sample u)) ∨
       (¬ s.ConfirmsIdle s.sample ∧
        ((s.UsesBudget s.sample ∧ t = State.raise .timeout (State.pollOn s.sample u)) ∨
         (¬ s.UsesBudget s.sample ∧ t = State.pollOn s.sample u))))) := by
  intro u
  obtain ⟨hwf, hpc, -, -, hc, -⟩ := hinv
  obtain ⟨hd, hf⟩ := hok
  rw [hst] at hpc
  rw [step_answer s _ hwf hrst (State.request_poll hst hpc) hd hf, hst] at hstep
  injection hstep with hstep
  rw [← hstep]
  have outcome := (hc.answered (.read .byte s.addr s.cfg.ctrlOff)).pollStep_cases hwf hst s.sample
    (if s.op = opWrcmd then State.goto .sel else State.complete)
  simp only [State.answered_meetsLimit, State.answered_confirmsIdle,
    State.answered_usesBudget] at outcome
  exact outcome

/-- A step of a command that is not an answered sample waits, moves on, or ends it with
AccessFailure or OK. -/
theorem step_other_cases (busy : s.st ≠ .idle) (h : ¬ (s.st = .poll ∧ s.AnswersOk)) :
    (t.st ≠ .idle ∧ t.resValid = false) ∨
    (t.st = .idle ∧ t.resValid = true ∧ (t.status = .accessFailure ∨ t.status = .ok)) := by
  obtain ⟨-, -, result, -⟩ := hinv
  have noResult := result busy
  obtain ⟨-, -, req, -, ⟨-, rfl⟩ | ⟨-, rfl⟩ | ⟨hok, rfl⟩⟩ := step_busy_cases busy hrst hstep
  · exact .inl ⟨busy, noResult⟩
  · exact .inr ⟨rfl, rfl, .inl rfl⟩
  · have notPoll : s.st ≠ .poll := fun hst => h ⟨hst, hok⟩
    obtain ⟨hst, hres⟩ | ⟨hst, hres, hstatus⟩ :=
      State.onAnswer_end_ok busy notPoll s.accPort.rdata (s.answered req)
    · exact .inl ⟨hst, hres.trans noResult⟩
    · exact .inr ⟨hst, hres, .inr hstatus⟩

end

/-- In IDLE a result that can be read after a step is the one before it, or IllegalCommand. -/
theorem step_idle_result {s t : State} (hstep : step s = .next t) (hrst : s.host.rst = false)
    (idle : s.st = .idle) (hres : t.resValid = true) :
    (s.host.cmdValid = false ∧ s.resValid = true ∧ s.status = t.status) ∨
      t.status = .illegalCommand := by
  obtain ⟨-, ⟨reset, -⟩ | ⟨-, ⟨-, quiet, rfl⟩ | ⟨-, -, -, rfl⟩ | ⟨-, -, i, -, rfl⟩ |
    ⟨busy, -⟩⟩⟩ := step_cases s t hstep
  · exact absurd reset (by simp [hrst])
  · exact .inl ⟨quiet, hres, rfl⟩
  · exact .inr rfl
  · exact absurd hres (by simp)
  · exact absurd idle busy

/-- Inside the limits a sample that meets the all-ones limit is not idle (R5). -/
theorem State.MeetsLimit.not_confirmsIdle {s : State} {v : Byte} (h : s.MeetsLimit v)
    (hwf : s.cfg.wellFormed = true) : ¬ s.ConfirmsIdle v := by
  rintro ⟨idle, -⟩
  rw [State.IdleSample, h.1] at idle
  exact Params.absent_not_idle hwf s.op idle

end Machine

/-- Settles O21: inside the limits a wait ends with OK where the sample confirms idle, and then the
sample is not the absent byte. -/
theorem waitSucceedsExactlyOnSecondIdleSample :
    Obligations.WaitSucceedsExactlyOnSecondIdleSample := by
  intro s t hinv hrst hst hop hok hstep
  change (t.st = .idle ∧ t.status = .ok) ↔ s.ConfirmsIdle s.sample
  have notWrcmd : s.op ≠ opWrcmd := by
    obtain h | h := hop <;> rw [h] <;> decide
  obtain ⟨limit, rfl⟩ | ⟨-, ⟨confirms, rfl⟩ | ⟨notConfirms, ⟨-, rfl⟩ | ⟨-, rfl⟩⟩⟩ :=
    step_sample_cases hinv hrst hstep hst hok
  · exact iff_of_false (by simp [Cause.status]) (limit.not_confirmsIdle hinv.1)
  · exact iff_of_true (by simp [notWrcmd]) confirms
  · exact iff_of_false (by simp [Cause.status]) notConfirms
  · exact iff_of_false (by simp [hst]) notConfirms

namespace Machine

section

variable {s t : State} (hinv : s.Inv) (hrst : s.host.rst = false) (hstep : step s = .next t)
  (hst : s.st = .poll) (hok : s.AnswersOk)
include hinv hrst hstep hst hok

/-- An answered sample ends its command with DeviceUnresponsive where it meets the limit. -/
theorem sample_unresponsive_iff :
    (t.st = .idle ∧ t.status = .deviceUnresponsive) ↔ s.MeetsLimit s.sample := by
  obtain ⟨limit, rfl⟩ | ⟨notLimit, ⟨-, rfl⟩ | ⟨-, ⟨-, rfl⟩ | ⟨-, rfl⟩⟩⟩ :=
    step_sample_cases hinv hrst hstep hst hok
  · exact iff_of_true ⟨rfl, rfl⟩ limit
  · exact iff_of_false (by split <;> simp) notLimit
  · exact iff_of_false (by simp [Cause.status]) notLimit
  · exact iff_of_false (by simp [hst]) notLimit

/-- An answered sample ends its command with Timeout where it neither meets the limit nor confirms
idle, and uses up the budget. -/
theorem sample_timeout_iff :
    (t.st = .idle ∧ t.status = .timeout) ↔
      ¬ s.MeetsLimit s.sample ∧ ¬ s.ConfirmsIdle s.sample ∧ s.UsesBudget s.sample := by
  obtain ⟨limit, rfl⟩ | ⟨notLimit, ⟨confirms, rfl⟩ | ⟨notConfirms, ⟨budget, rfl⟩ |
    ⟨notBudget, rfl⟩⟩⟩ :=
    step_sample_cases hinv hrst hstep hst hok
  · exact iff_of_false (by simp [Cause.status]) fun h => h.1 limit
  · exact iff_of_false (by split <;> simp) fun h => h.2.1 confirms
  · exact iff_of_true ⟨rfl, rfl⟩ ⟨notLimit, notConfirms, budget⟩
  · exact iff_of_false (by simp [hst]) fun h => notBudget h.2.2

end

/-- A status that only a poll raises ends a command exactly where an answered sample does. -/
theorem end_iff_of_sample {s t : State} (hinv : s.Inv) (hrst : s.host.rst = false)
    (hstep : step s = .next t) (busy : s.st ≠ .idle) {status : Status} {P : Prop}
    (hstatus : status ≠ .accessFailure ∧ status ≠ .ok)
    (hsample : s.st = .poll → s.AnswersOk → ((t.st = .idle ∧ t.status = status) ↔ P)) :
    (t.st = .idle ∧ t.status = status) ↔ s.st = .poll ∧ s.AnswersOk ∧ P := by
  by_cases sampled : s.st = .poll ∧ s.AnswersOk
  · obtain ⟨hst, hok⟩ := sampled
    rw [hsample hst hok, and_iff_right hst, and_iff_right hok]
  · refine iff_of_false (fun ⟨hend, h⟩ => ?_) fun h => sampled ⟨h.1, h.2.1⟩
    obtain ⟨hne, -⟩ | ⟨-, -, other⟩ := step_other_cases hinv hrst hstep busy sampled
    · exact hne hend
    · rw [h] at other
      exact other.elim hstatus.1 hstatus.2

end Machine

/-- Settles O22. -/
theorem unresponsiveExactlyAtTheLimit : Obligations.UnresponsiveExactlyAtTheLimit := by
  refine fun s t hinv hrst hstep => ⟨fun busy => ?_, fun idle hres hstatus => ?_⟩
  · exact end_iff_of_sample hinv hrst hstep busy ⟨nofun, nofun⟩
      (sample_unresponsive_iff hinv hrst hstep)
  · obtain ⟨quiet, valid, same⟩ | illegal := step_idle_result hstep hrst idle hres
    · exact ⟨quiet, valid, same.trans hstatus⟩
    · exact absurd (illegal.symm.trans hstatus) nofun

/-- Settles O23. -/
theorem timeoutExactlyAtTheBudget : Obligations.TimeoutExactlyAtTheBudget := by
  refine fun s t hinv hrst hstep => ⟨fun busy => ?_, fun idle hres hstatus => ?_⟩
  · exact end_iff_of_sample hinv hrst hstep busy ⟨nofun, nofun⟩
      (sample_timeout_iff hinv hrst hstep)
  · obtain ⟨quiet, valid, same⟩ | illegal := step_idle_result hstep hrst idle hres
    · exact ⟨quiet, valid, same.trans hstatus⟩
    · exact absurd (illegal.symm.trans hstatus) nofun

/-- Settles O40: a step of a command that ends it sets the result, and one that does not leaves the
result clear. -/
theorem completionSetsTheResult : Obligations.CompletionSetsTheResult := by
  intro s t hinv hstep hrst
  have kept : t.Inv := everyStepKeepsTheInvariant s t hinv hstep
  obtain ⟨-, -, noResult, -⟩ := kept
  refine ⟨fun busy => ⟨fun hend => ?_, fun hres => ?_⟩, noResult⟩
  · by_cases sampled : s.st = .poll ∧ s.AnswersOk
    · obtain ⟨hst, hok⟩ := sampled
      obtain ⟨-, rfl⟩ | ⟨-, ⟨-, rfl⟩ | ⟨-, ⟨-, rfl⟩ | ⟨-, rfl⟩⟩⟩ :=
        step_sample_cases hinv hrst hstep hst hok
      · rfl
      · split at hend
        · simp at hend
        next hop => rw [if_neg hop]; rfl
      · rfl
      · simp [hst] at hend
    · obtain ⟨hne, -⟩ | ⟨-, valid, -⟩ := step_other_cases hinv hrst hstep busy sampled
      · exact absurd hend hne
      · exact valid
  · by_contra hne
    exact absurd (hres.symm.trans (noResult hne)) nofun

end Sys2Proof
end

section
/-! PROOFS. The parameter `PAIRED_CONFIRM` (40_poller.md R74): what a step makes of two states that
differ in it and in the round count. -/

namespace Sys2Proof

open Config Machine

namespace Machine

/-- Another value of `PAIRED_CONFIRM`, and another round count. -/
def State.setPairing (n : Nat) (b : Bool) (s : State) : State :=
  { s with rounds := n, cfg := { s.cfg with pairedConfirm := b } }

theorem State.eqButPairing_iff (s t : State) :
    s.EqButPairing t ↔ ∃ n b, t = s.setPairing n b := by
  constructor
  · exact fun h => ⟨_, _, h.symm⟩
  · rintro ⟨n, b, rfl⟩
    rfl

section

variable (n : Nat) (b : Bool) (s : State)

/-- The next command is accepted alike, with its round count zero where it polls. -/
theorem State.acceptCommand_setPairing (i : Instr) :
    (State.acceptCommand i s).EqButPairing (State.acceptCommand i (s.setPairing n b)) := by
  cases i <;> rfl

/-- Outside POLL an answer reads neither. -/
theorem State.onAnswer_setPairing {x : St} (hx : x ≠ .poll) (op : Byte) (v : Word) :
    (State.onAnswer op x v s).EqButPairing (State.onAnswer op x v (s.setPairing n b)) := by
  cases x with
  | poll => exact absurd rfl hx
  | idle | sel | dat | rd1 | rd2 | ack => rfl
  | ctl =>
    by_cases hop : op = opWrcmd
    · simp only [State.onAnswer, if_pos hop]
      cases hph : s.ph with
      | one =>
        rw [State.phaseEnds_one (s := State.countIssue s) hph,
          State.phaseEnds_one (s := State.countIssue (s.setPairing n b)) hph]
        rfl
      | two =>
        rw [State.phaseEnds_two (s := State.countIssue s) hph,
          State.phaseEnds_two (s := State.countIssue (s.setPairing n b)) hph]
        rfl
    · simp only [State.onAnswer, if_neg hop]
      rfl

end

/-- An answered sample, under both values: they agree on the all-ones limit and on success, so they
differ where one of them has used up its budget. -/
theorem sample_setPairing {s t1 t2 : State} {n : Nat} {b : Bool} (hinv1 : s.Inv)
    (hinv2 : (s.setPairing n b).Inv) (hrst : s.host.rst = false) (hst : s.st = .poll)
    (hok : s.AnswersOk) (hstep1 : step s = .next t1) (hstep2 : step (s.setPairing n b) = .next t2) :
    (t1.st = .idle ∧ t1.status = .timeout) ∨ (t2.st = .idle ∧ t2.status = .timeout) ∨
      t1.EqButPairing t2 := by
  have second := step_sample_cases hinv2 hrst hstep2 hst hok
  obtain ⟨limit, rfl⟩ | ⟨notLimit, ⟨confirms, rfl⟩ | ⟨notConfirms, ⟨-, rfl⟩ | ⟨-, rfl⟩⟩⟩ :=
    step_sample_cases hinv1 hrst hstep1 hst hok
  · obtain ⟨-, rfl⟩ | ⟨notLimit, -⟩ := second
    · exact .inr (.inr rfl)
    · exact absurd limit notLimit
  · obtain ⟨limit, -⟩ | ⟨-, ⟨-, rfl⟩ | ⟨notConfirms, -⟩⟩ := second
    · exact absurd limit notLimit
    · by_cases hop : s.op = opWrcmd
      · exact .inr (.inr (by rw [if_pos hop, if_pos (by exact hop)]; rfl))
      · exact .inr (.inr (by rw [if_neg hop, if_neg (by exact hop)]; rfl))
    · exact absurd confirms notConfirms
  · exact .inl ⟨rfl, rfl⟩
  · obtain ⟨limit, -⟩ | ⟨-, ⟨confirms, -⟩ | ⟨-, ⟨-, rfl⟩ | ⟨-, rfl⟩⟩⟩ := second
    · exact absurd limit notLimit
    · exact absurd confirms notConfirms
    · exact .inr (.inl ⟨rfl, rfl⟩)
    · exact .inr (.inr rfl)

end Machine

/-- Settles O27: `Reset`, the waits, `Accept`, a failure and an answer outside POLL read neither the
parameter nor the round count; an answered sample reads them for Timeout alone. -/
theorem pairedConfirmOnlyMovesTimeout : Obligations.PairedConfirmOnlyMovesTimeout := by
  intro s1 s2 t1 t2 hinv1 hinv2 hpair hstep1 hstep2
  obtain ⟨n, b, rfl⟩ := (State.eqButPairing_iff s1 s2).mp hpair
  have hwf2 := hinv2.1
  by_cases sampled : s1.host.rst = false ∧ s1.st = .poll ∧ s1.AnswersOk
  · obtain ⟨hrst, hst, hok⟩ := sampled
    obtain timeout | timeout | same := sample_setPairing hinv1 hinv2 hrst hst hok hstep1 hstep2
    · exact .inl ⟨hst, timeout⟩
    · exact .inr (.inl ⟨hst, timeout⟩)
    · exact .inr (.inr same)
  refine .inr (.inr ?_)
  obtain ⟨-, ⟨hrst, rfl⟩ | ⟨hrst, ⟨idle, quiet, rfl⟩ | ⟨idle, offer, reserved, rfl⟩ |
    ⟨idle, offer, i, hi, rfl⟩ | ⟨busy, -, req, hq, ⟨hd, rfl⟩ | ⟨hd, hf, rfl⟩ | ⟨hd, hf, rfl⟩⟩⟩⟩ :=
      step_cases s1 t1 hstep1
  · cases hstep2.symm.trans (step_reset (s1.setPairing n b) hwf2 hrst)
    rfl
  · cases hstep2.symm.trans (step_wait (s1.setPairing n b) hwf2 hrst idle quiet)
    rfl
  · cases hstep2.symm.trans (step_illegal (s1.setPairing n b) hwf2 hrst idle offer reserved)
    rfl
  · cases hstep2.symm.trans (step_accept (s1.setPairing n b) i hwf2 hrst idle offer hi)
    exact State.acceptCommand_setPairing n b s1 i
  · cases hstep2.symm.trans (step_pending (s1.setPairing n b) req hwf2 hrst hq hd)
    rfl
  · cases hstep2.symm.trans (step_fail (s1.setPairing n b) req hwf2 hrst hq hd hf)
    rfl
  · cases hstep2.symm.trans (step_answer (s1.setPairing n b) req hwf2 hrst hq hd hf)
    exact State.onAnswer_setPairing n b (s1.answered req)
      (fun hst => sampled ⟨hrst, hst, hd, hf⟩) _ _

end Sys2Proof
end

section
/-! PROOFS. Progress and bounds (70_reset_and_hazards.md R154, R155, 20_memory.md R47): there is always
a next step, every answer brings the end of a command nearer, and so every command ends. -/

namespace Sys2Proof

open Config Machine

/-- Settles O57: an event of IDLE has a next state always, and a legal state of a command enables a
transaction, which is answered or waits. -/
theorem stepIsNeverStuck : Obligations.StepIsNeverStuck := by
  rintro s ⟨hwf, legal, -⟩
  have enabled : s.st ≠ .idle ↔ ∃ req, s.request = some req := by
    rw [s.request_some_iff, and_iff_left legal]
  refine ⟨?_, enabled⟩
  cases hrst : s.host.rst with
  | true => exact ⟨_, step_reset s hwf hrst⟩
  | false =>
    by_cases idle : s.st = .idle
    · cases hvalid : s.host.cmdValid with
      | false => exact ⟨_, step_wait s hwf hrst idle hvalid⟩
      | true =>
        by_cases hop : opField s.host.cmdWord ∈ definedOpcodes
        · obtain ⟨i, hi⟩ := decode_of_defined _ hop
          exact ⟨_, step_accept s i hwf hrst idle hvalid hi⟩
        · exact ⟨_, step_illegal s hwf hrst idle hvalid hop⟩
    · obtain ⟨req, hq⟩ := enabled.mp idle
      exact ⟨_, (step_busy s hwf hrst idle).trans (State.transact_some _ s req hq)⟩

namespace Machine

/-! ## The samples a poll may still take -/

theorem State.enterPoll_pollLeft (s : State) : (State.enterPoll s).pollLeft = pollMost s.cfg := by
  simp only [State.pollLeft, State.enterPoll_cfg, State.enterPoll_rounds,
    State.enterPoll_prevIdle, pollMost, Nat.sub_zero]
  rfl

section

variable {u : State} (hc : u.CountersOk) (hst : u.st = .poll)
include hc hst

theorem State.CountersOk.pollLeft_pos : 0 < u.pollLeft := by
  obtain ⟨-, -, hpoll⟩ := hc
  obtain ⟨-, below | ⟨paired, prev⟩⟩ := hpoll hst
  · unfold State.pollLeft
    split <;> omega
  · simp [State.pollLeft, paired, prev]

/-- A sample that does not confirm idle uses up one of them at least. -/
theorem State.CountersOk.pollOn_pollLeft_lt {v : Byte} (h : ¬ u.ConfirmsIdle v) :
    (State.pollOn v u).pollLeft < u.pollLeft := by
  obtain ⟨-, -, hpoll⟩ := hc
  obtain ⟨-, hopen⟩ := hpoll hst
  cases hp : u.cfg.pairedConfirm <;> cases hi : u.prevIdle
  case true.true =>
    have busy : ¬ v &&& busyMask u.cfg u.op = 0 := fun idle => h ⟨idle, hi⟩
    simpa [State.pollLeft, State.pollOn, State.sampled, hp, hi] using busy
  case true.false =>
    simp only [hp, hi, and_false, or_false, reduceCtorEq] at hopen
    simp only [State.pollLeft, State.pollOn, State.sampled, hp, hi, or_true, if_true]
    split <;> simp <;> omega
  all_goals
    simp only [hp, false_and, or_false, reduceCtorEq] at hopen
    simp [State.pollLeft, State.pollOn, State.sampled, hp]
    omega

end

/-! ## The transactions a command may still make -/

theorem State.phaseTwoLeft_of_one {s : State} (hop : s.op = opWrcmd) (hph : s.ph = .one) :
    s.phaseTwoLeft = pollMost s.cfg + 3 := if_pos ⟨hop, hph⟩

theorem State.phaseTwoLeft_of_two {s : State} (hph : s.ph = .two) : s.phaseTwoLeft = 0 := by
  simp [State.phaseTwoLeft, hph]

theorem State.remaining_idle {s : State} (h : s.st = .idle) : s.remaining = 0 := by
  simp only [State.remaining, h]

theorem State.remaining_poll {s : State} (h : s.st = .poll) :
    s.remaining = s.pollLeft + (if s.op = opWrcmd then 3 else 0) + s.phaseTwoLeft := by
  simp only [State.remaining, h]

theorem State.remaining_sel {s : State} (h : s.st = .sel) : s.remaining = 3 + s.phaseTwoLeft := by
  simp only [State.remaining, h]

theorem State.remaining_dat {s : State} (h : s.st = .dat) : s.remaining = 2 + s.phaseTwoLeft := by
  simp only [State.remaining, h]

theorem State.remaining_ctl {s : State} (h : s.st = .ctl) : s.remaining = 1 + s.phaseTwoLeft := by
  simp only [State.remaining, h]

theorem State.phaseTwoLeft_congr {s t : State} (hop : t.op = s.op) (hph : t.ph = s.ph)
    (hcfg : t.cfg = s.cfg) : t.phaseTwoLeft = s.phaseTwoLeft := by
  rw [State.phaseTwoLeft, State.phaseTwoLeft, hop, hph, hcfg]

/-- Where the counters are inside their limits the bound is 0 in IDLE alone. -/
theorem State.remaining_eq_zero_iff {s : State} (hc : s.CountersOk) :
    s.remaining = 0 ↔ s.st = .idle := by
  refine ⟨fun h => ?_, State.remaining_idle⟩
  cases hst : s.st with
  | idle => rfl
  | poll =>
    have := hc.pollLeft_pos hst
    rw [State.remaining_poll hst] at h
    omega
  | sel | dat | ctl | rd1 | rd2 | ack => simp [State.remaining, hst] at h

/-- A poll that goes on has one transaction less before it. -/
theorem State.CountersOk.pollOn_remaining_lt {u : State} (hc : u.CountersOk) (hst : u.st = .poll)
    {v : Byte} (h : ¬ u.ConfirmsIdle v) : (State.pollOn v u).remaining < u.remaining := by
  have less := hc.pollOn_pollLeft_lt hst h
  have phaseTwo : (State.pollOn v u).phaseTwoLeft = u.phaseTwoLeft :=
    State.phaseTwoLeft_congr rfl rfl rfl
  rw [State.remaining_poll hst, State.remaining_poll (by rwa [State.pollOn_st]), phaseTwo,
    State.pollOn_op]
  omega

/-- The success of a poll of WRCMD leaves the issue of its phase, and no sample. -/
theorem State.CountersOk.success_remaining_lt {u : State} (hc : u.CountersOk) (hst : u.st = .poll)
    (hop : u.op = opWrcmd) {v : Byte} :
    (State.goto .sel (State.sampled v u)).remaining < u.remaining := by
  have left := hc.pollLeft_pos hst
  have phaseTwo : (State.goto .sel (State.sampled v u)).phaseTwoLeft = u.phaseTwoLeft :=
    State.phaseTwoLeft_congr rfl rfl rfl
  rw [State.remaining_poll hst, if_pos hop, State.remaining_sel (State.goto_st _ _), phaseTwo]
  omega

theorem State.answered_remaining (s : State) (req : Request) :
    (s.answered req).remaining = s.remaining := rfl

/-- An answer outside POLL brings the end nearer by one transaction. -/
theorem State.onAnswer_remaining {t : State} (hidle : t.st ≠ .idle) (hpoll : t.st ≠ .poll)
    (v : Word) :
    (State.onAnswer t.op t.st v t).remaining < t.remaining := by
  cases hst : t.st with
  | idle => exact absurd hst hidle
  | poll => exact absurd hst hpoll
  | sel =>
    rw [State.remaining_sel hst, State.onAnswer, State.remaining_dat (State.goto_st _ _),
      State.phaseTwoLeft_congr (State.goto_op _ t) (State.goto_ph _ t) (State.goto_cfg _ t)]
    omega
  | dat =>
    rw [State.remaining_dat hst, State.onAnswer, State.remaining_ctl (State.goto_st _ _),
      State.phaseTwoLeft_congr (State.goto_op _ t) (State.goto_ph _ t) (State.goto_cfg _ t)]
    omega
  | rd1 | rd2 | ack =>
    simp only [State.remaining, hst, State.onAnswer, State.goto_st, State.complete_st]
    decide
  | ctl =>
    rw [State.remaining_ctl hst, State.onAnswer]
    by_cases hop : t.op = opWrcmd
    · rw [if_pos hop]
      cases hph : t.ph with
      | one =>
        rw [State.phaseEnds_one (s := State.countIssue t) hph,
          State.remaining_poll (State.enterPoll_st _),
          State.enterPoll_pollLeft, State.phaseTwoLeft_of_one hop hph,
          State.phaseTwoLeft_of_two rfl]
        change pollMost t.cfg + (if t.op = opWrcmd then 3 else 0) + 0 < _
        rw [if_pos hop]
        omega
      | two =>
        rw [State.phaseEnds_two (s := State.countIssue t) hph,
          State.remaining_idle (State.complete_st _)]
        omega
    · rw [if_neg hop, State.remaining_idle (State.complete_st _)]
      omega

end Machine

/-- Settles O58: a poll entry leaves the whole budget, and phase 1 of a WRCMD a second one. -/
theorem acceptSetsTheTransactionBound : Obligations.AcceptSetsTheTransactionBound := by
  intro s t i idle hexec
  rw [exec_idle i s idle] at hexec
  cases hexec
  cases i with
  | issuerd | issuewr | rdcmd => rfl
  | waitrd | waitwr =>
    rw [State.acceptCommand, State.remaining_poll (State.enterPoll_st _), State.enterPoll_pollLeft]
    rfl
  | wrcmd =>
    rw [State.acceptCommand, State.remaining_poll (State.enterPoll_st _), State.enterPoll_pollLeft,
      State.phaseTwoLeft_of_one rfl rfl]
    change pollMost s.cfg + 3 + (pollMost s.cfg + 3) = 2 * pollMost s.cfg + 6
    omega

/-- Settles O59: a failure ends the command; a sample that does not end its poll uses up one of the
samples left; every other answer moves on to a state with one transaction less. -/
theorem everyAnswerReducesTheBound : Obligations.EveryAnswerReducesTheBound := by
  intro s t hinv hrst busy hdone hstep
  have kept : t.Inv := everyStepKeepsTheInvariant s t hinv hstep
  obtain ⟨-, -, -, -, hc', -⟩ := kept
  obtain ⟨-, -, -, -, hc, -⟩ := id hinv
  refine ⟨?_, State.remaining_eq_zero_iff hc'⟩
  have positive : 0 < s.remaining :=
    Nat.pos_of_ne_zero fun h => busy ((State.remaining_eq_zero_iff hc).mp h)
  by_cases sampled : s.st = .poll ∧ s.AnswersOk
  · obtain ⟨hst, hok⟩ := sampled
    have counters : (s.answered (.read .byte s.addr s.cfg.ctrlOff)).CountersOk := hc
    obtain ⟨-, rfl⟩ | ⟨-, ⟨-, rfl⟩ | ⟨notConfirms, ⟨-, rfl⟩ | ⟨-, rfl⟩⟩⟩ :=
      step_sample_cases hinv hrst hstep hst hok
    · rwa [State.remaining_idle (State.raise_st _ _)]
    · split
      next hop =>
        rw [← s.answered_remaining (.read .byte s.addr s.cfg.ctrlOff)]
        exact counters.success_remaining_lt hst hop
      · rwa [State.remaining_idle (State.complete_st _)]
    · rwa [State.remaining_idle (State.raise_st _ _)]
    · rw [← s.answered_remaining (.read .byte s.addr s.cfg.ctrlOff)]
      exact counters.pollOn_remaining_lt hst notConfirms
  · obtain ⟨-, -, req, -, ⟨hd, -⟩ | ⟨-, rfl⟩ | ⟨hok, rfl⟩⟩ := step_busy_cases busy hrst hstep
    · exact absurd (hd.symm.trans hdone) nofun
    · rwa [State.remaining_idle (State.raise_st _ _)]
    · exact State.onAnswer_remaining (t := s.answered req) busy (fun hst => sampled ⟨hst, hok⟩) _

namespace Machine

/-! ## Every command ends -/

/-- A step of a command with an answer takes one answer and records one transaction. -/
theorem step_answered {s t : State} (busy : s.st ≠ .idle) (host : s.HostDone)
    (hdone : s.accPort.done = true) (hstep : step s = .next t) :
    t.env = s.env.tail ∧ t.trace.length = s.trace.length + 1 ∧ t.HostDone := by
  obtain ⟨-, -, req, -, ⟨hd, -⟩ | ⟨-, rfl⟩ | ⟨-, rfl⟩⟩ := step_busy_cases busy host.1.1 hstep
  · exact absurd (hd.symm.trans hdone) nofun
  · exact ⟨rfl, by simp [State.answeredFail], host.ticked⟩
  · refine ⟨State.onAnswer_env .., by simp, ?_⟩
    rw [State.HostDone, State.HostSilent, State.onAnswer_host, State.onAnswer_hostNext]
    exact host.ticked

/-- From inside a command, where enough answers are to come. -/
theorem run_ends (n : Nat) {s : State} (hinv : s.Inv) (host : s.HostDone) (busy : s.st ≠ .idle)
    (hbound : s.remaining ≤ n) (henv : n ≤ s.env.length) (hdone : ∀ p ∈ s.env, p.done = true) :
    ∃ k t, k ≤ n ∧ Host.Core.run Sys2Proof.core k s = .next t ∧ t.st = .idle ∧
      t.resValid = true ∧ t.trace.length = s.trace.length + k := by
  induction n generalizing s with
  | zero =>
    obtain ⟨-, -, -, -, hc, -⟩ := hinv
    exact absurd ((State.remaining_eq_zero_iff hc).mp (Nat.le_zero.mp hbound)) busy
  | succ n ih =>
    obtain ⟨p, rest, hcons⟩ := List.exists_cons_of_length_pos (Nat.lt_of_lt_of_le n.succ_pos henv)
    rw [hcons] at henv hdone
    have answered : s.accPort.done = true := by
      rw [s.accPort_cons p rest hcons]
      exact hdone p List.mem_cons_self
    obtain ⟨⟨u, hstep⟩, -⟩ := stepIsNeverStuck s hinv
    have hinv' : u.Inv := everyStepKeepsTheInvariant s u hinv hstep
    obtain ⟨less, -⟩ := everyAnswerReducesTheBound s u hinv host.1.1 busy answered hstep
    obtain ⟨env, trace, host'⟩ := step_answered busy host answered hstep
    rw [hcons, List.tail_cons] at env
    by_cases ends : u.st = .idle
    · have valid := ((completionSetsTheResult s u hinv hstep host.1.1).1 busy).mp ends
      exact ⟨1, u, by omega, run_succ_eq_next_iff.mpr ⟨u, hstep, rfl⟩, ends, valid, trace⟩
    · obtain ⟨k, t, hk, hrun, hend, hres, htrace⟩ := ih hinv' host' ends (by omega)
        (by rw [env]; exact Nat.le_of_succ_le_succ henv)
        (fun q hq => hdone q (List.mem_cons_of_mem p (env ▸ hq)))
      exact ⟨k + 1, t, Nat.succ_le_succ hk, run_succ_eq_next_iff.mpr ⟨u, hstep, hrun⟩, hend, hres,
        by omega⟩

end Machine

/-- Settles O60: `Accept` sets the bound, and every answer reduces it. -/
theorem everyCommandEndsWithinItsBound : Obligations.EveryCommandEndsWithinItsBound := by
  rintro s i hinv ⟨hwf, idle, silent, hvalid, hdecode⟩ henv hdone
  have accept := step_accept s i hwf silent.1 idle hvalid hdecode
  have bound := acceptSetsTheTransactionBound s _ i idle (exec_idle i s idle)
  have hinv' : (State.acceptCommand i s).Inv := everyStepKeepsTheInvariant s _ hinv accept
  have host : (State.acceptCommand i s).HostDone := by
    rw [State.HostDone, State.HostSilent, State.acceptCommand_host, State.acceptCommand_hostNext]
    exact silent.accept
  obtain ⟨k, t, hk, hrun, hend, hres, htrace⟩ := run_ends _ hinv' host
    (State.acceptCommand_busy i s) bound.le (by rwa [State.acceptCommand_env])
    (by rwa [State.acceptCommand_env])
  rw [State.acceptCommand_trace] at htrace
  exact ⟨k, t, hk, by rw [Nat.add_comm]; exact run_succ_eq_next_iff.mpr ⟨_, accept, hrun⟩, hend,
    hres, htrace⟩

end Sys2Proof
end

section
/-! PROOFS. Runs of whole commands whose transactions are answered: a wait in two idle samples, with an
absent and with a stuck device (40_poller.md R75, R77, R78), an issue (41_issuer.md R91), RDCMD
(42_sequences.md R106) and WRCMD (R102). -/

namespace Sys2Proof

open Config Machine

namespace Machine

/-! ## The host during a run -/

/-- `H n` holds of the host where `n` more steps of a command are planned for: `rst` stays low
meanwhile, and each step brings the plan on. -/
structure HostPlan (H : Nat → State → Prop) : Prop where
  low : ∀ n s, H (n + 1) s → s.host.rst = false
  next : ∀ n s t, H (n + 1) s → t.host = s.nextHost false → t.hostNext = s.hostNext.tail → H n t
  congr : ∀ n s t, H n s → t.host = s.host → t.hostNext = s.hostNext → H n t

theorem State.HostDone.of_next {s t : State} (h : s.HostDone) (hhost : t.host = s.nextHost false)
    (hnext : t.hostNext = s.hostNext.tail) : t.HostDone := by
  rw [State.HostDone, State.HostSilent, hhost, hnext]
  exact h.ticked

theorem State.HostDone.congr {s t : State} (h : s.HostDone) (hhost : t.host = s.host)
    (hnext : t.hostNext = s.hostNext) : t.HostDone := by
  rw [State.HostDone, State.HostSilent, hhost, hnext]
  exact h

/-- A host that gives nothing more can be planned with for ever. -/
theorem hostPlan_done : HostPlan fun _ => State.HostDone where
  low _ _ h := h.1.1
  next _ _ _ h := h.of_next
  congr _ _ _ h := h.congr

/-! ## What a run has recorded -/

/-- The bytes written after transactions that were answered without failure. -/
def bytesAfter (l : List Transaction) (m : Memory) : Memory :=
  l.foldl (fun m x => Memory.writeAll m x.req.cells) m

/-- From `s` to `t` the transactions `l` were answered without failure, within one command. -/
def State.Recorded (l : List Transaction) (s t : State) : Prop :=
  t.trace = s.trace ++ l ∧ t.written = bytesAfter l s.written ∧ t.env = s.env.drop l.length ∧
    t.cfg = s.cfg ∧ t.latchedWord = s.latchedWord

theorem State.Recorded.trans {l l' : List Transaction} {s t u : State} (h : t.Recorded l' u)
    (h' : s.Recorded l t) : s.Recorded (l ++ l') u := by
  obtain ⟨trace, written, env, cfg, latched⟩ := h
  obtain ⟨trace', written', env', cfg', latched'⟩ := h'
  refine ⟨?_, ?_, ?_, cfg.trans cfg', latched.trans latched'⟩
  · rw [trace, trace', List.append_assoc]
  · rw [written, written', bytesAfter, bytesAfter, bytesAfter, List.foldl_append]
  · rw [env, env', List.drop_drop, List.length_append]

/-- One transaction; what the answer does besides is no part of what is recorded. -/
theorem State.recorded_answered (s : State) (req : Request) :
    s.Recorded [⟨req, req.okReply s.accPort.rdata⟩] (s.answered req) :=
  ⟨rfl, rfl, List.drop_one.symm, rfl, rfl⟩

theorem run_add {m n : Nat} {s t u : State} (h : Host.Core.run Sys2Proof.core m s = .next t)
    (h' : Host.Core.run Sys2Proof.core n t = .next u) :
    Host.Core.run Sys2Proof.core (m + n) s = .next u := by
  induction m generalizing s with
  | zero =>
    cases h
    rwa [Nat.zero_add]
  | succ m ih =>
    obtain ⟨r, hstep, hrun⟩ := run_succ_eq_next_iff.mp h
    rw [Nat.add_right_comm]
    exact run_succ_eq_next_iff.mpr ⟨r, hstep, ih hrun⟩

theorem run_one {s t : State} (h : step s = .next t) :
    Host.Core.run Sys2Proof.core 1 s = .next t :=
  run_succ_eq_next_iff.mpr ⟨t, h, rfl⟩

/-! ## Samples -/

/-- The byte of a data word that shows a sample is that sample (10_state.md R23). -/
theorem extractLsb'_setWidth_byte (v : Byte) : (v.setWidth 32).extractLsb' 0 8 = v := by
  rw [BitVec.extractLsb'_setWidth_of_le (by decide), BitVec.extractLsb'_eq_self]

section

variable {s : State} {v : Byte} {rest : List AccPort}

theorem State.answersOk_of_env {w : Word} (h : s.env = answerOk w :: rest) :
    s.AnswersOk ∧ s.accPort.rdata = w := by
  have hport := s.accPort_cons _ rest h
  rw [State.AnswersOk, hport]
  exact ⟨⟨rfl, rfl⟩, rfl⟩

theorem State.sample_of_env (h : s.env = sampleOf v :: rest) : s.AnswersOk ∧ s.sample = v := by
  obtain ⟨hok, hdata⟩ := State.answersOk_of_env h
  rw [State.sample, hdata, extractLsb'_setWidth_byte]
  exact ⟨hok, rfl⟩

/-- The control byte sample with its answer recorded. -/
abbrev State.withSample (s : State) : State := s.answered (.read .byte s.addr s.cfg.ctrlOff)

theorem State.recorded_withSample (h : s.env = sampleOf v :: rest) :
    s.Recorded [sampleEntry s.cfg s.addr v] s.withSample := by
  have recorded := s.recorded_answered (.read .byte s.addr s.cfg.ctrlOff)
  rw [(State.answersOk_of_env h).2] at recorded
  have entry : sampleEntry s.cfg s.addr v = ⟨.read .byte s.addr s.cfg.ctrlOff,
      Request.okReply (v.setWidth 32) (.read .byte s.addr s.cfg.ctrlOff)⟩ := by
    rw [Request.okReply, AccSize.readValue, extractLsb'_setWidth_byte]
    rfl
  rwa [entry]

end

/-- A poll of a command, inside its limits. -/
structure State.Polling (s : State) : Prop where
  wf : s.cfg.wellFormed = true
  st : s.st = .poll
  legal : pcLegal s.op .poll s.ph = true
  counters : s.CountersOk

section

variable {s : State} (h : s.Polling) {v : Byte}
include h

/-- A sample that neither meets a limit nor confirms idle leaves the poll going. -/
theorem State.Polling.pollOn (hlimit : ¬ s.MeetsLimit v) (hbudget : ¬ s.UsesBudget v) :
    (State.pollOn v s.withSample).Polling := by
  exact ⟨by simpa using h.wf, by simpa using h.st, by simpa using h.legal,
    (h.counters.answered _).pollOn h.st v (by rwa [State.answered_meetsLimit])
      (by rwa [State.answered_usesBudget])⟩

variable {rest : List AccPort} (hrst : s.host.rst = false) (henv : s.env = sampleOf v :: rest)
include hrst henv

/-- A step of a poll on a sample of the environment, by its outcome. -/
theorem State.Polling.step_cases :
    (s.MeetsLimit v ∧ step s = .next (State.raise .deviceUnresponsive
      (State.sampled v s.withSample))) ∨
    (¬ s.MeetsLimit v ∧
      ((s.ConfirmsIdle v ∧ step s = .next ((if s.op = opWrcmd then State.goto .sel
          else State.complete) (State.sampled v s.withSample))) ∨
       (¬ s.ConfirmsIdle v ∧
        ((s.UsesBudget v ∧ step s = .next (State.raise .timeout (State.pollOn v s.withSample))) ∨
         (¬ s.UsesBudget v ∧ step s = .next (State.pollOn v s.withSample)))))) := by
  obtain ⟨⟨hd, hf⟩, hsample⟩ := State.sample_of_env henv
  have stepped := step_answer s _ h.wf hrst (State.request_poll h.st h.legal) hd hf
  rw [h.st, State.onAnswer, ← State.sample, hsample] at stepped
  have outcome := (h.counters.answered (.read .byte s.addr s.cfg.ctrlOff)).pollStep_cases h.wf
    h.st v (if s.op = opWrcmd then State.goto .sel else State.complete)
  simp only [State.answered_meetsLimit, State.answered_confirmsIdle,
    State.answered_usesBudget] at outcome
  rw [stepped]
  exact outcome.imp (And.imp_right (congrArg _)) (And.imp_right (Or.imp (And.imp_right (congrArg _))
    (And.imp_right (Or.imp (And.imp_right (congrArg _)) (And.imp_right (congrArg _))))))

end

theorem State.Recorded.congr {l : List Transaction} {s t u : State} (h : s.Recorded l t)
    (htrace : u.trace = t.trace) (hwritten : u.written = t.written) (henv : u.env = t.env)
    (hcfg : u.cfg = t.cfg) (hlatched : u.latchedWord = t.latchedWord) : s.Recorded l u := by
  rw [State.Recorded, htrace, hwritten, henv, hcfg, hlatched]
  exact h

/-! Moves of the sequencer and of the poll state are no part of what is recorded. -/

section

variable {l : List Transaction} {s t : State} (h : s.Recorded l t)
include h

theorem State.Recorded.goto (x : St) : s.Recorded l (State.goto x t) := h.congr rfl rfl rfl rfl rfl

theorem State.Recorded.raise (e : Cause) : s.Recorded l (State.raise e t) :=
  h.congr rfl rfl rfl rfl rfl

theorem State.Recorded.complete : s.Recorded l (State.complete t) := h.congr rfl rfl rfl rfl rfl

theorem State.Recorded.countIssue : s.Recorded l (State.countIssue t) :=
  h.congr rfl rfl rfl rfl rfl

theorem State.Recorded.sampled (v : Byte) : s.Recorded l (State.sampled v t) :=
  h.congr rfl rfl rfl rfl rfl

theorem State.Recorded.pollOn (v : Byte) : s.Recorded l (State.pollOn v t) :=
  h.congr rfl rfl rfl rfl rfl

end

/-- The latches of two states with the same latched word. -/
theorem State.Recorded.latches {l : List Transaction} {s t : State} (h : s.Recorded l t) :
    t.op = s.op ∧ t.addr = s.addr ∧ t.reg = s.reg ∧ t.a = s.a ∧ t.b = s.b ∧ t.c = s.c := by
  obtain ⟨-, -, -, -, latched⟩ := h
  simpa [State.latchedWord] using State.latches_of_latchedWord latched

/-! ### Samples that leave the poll going -/

theorem State.recorded_pollOn {s : State} {v : Byte} {rest : List AccPort}
    (h : s.env = sampleOf v :: rest) :
    s.Recorded [sampleEntry s.cfg s.addr v] (State.pollOn v s.withSample) :=
  (State.recorded_withSample h).pollOn v

theorem State.HostDone.pollOn {s : State} (h : s.HostDone) {v : Byte} :
    (State.pollOn v s.withSample).HostDone := h.of_next (by simp) (by simp)

/-- Busy samples within both limits leave the poll going, and are counted. -/
theorem busy_run (l : List Byte) {s : State} (h : s.Polling) (host : s.HostDone)
    {rest : List AccPort} (henv : s.env = l.map sampleOf ++ rest)
    (hbusy : ∀ v ∈ l, ¬ s.IdleSample v) (hprev : s.prevIdle = false)
    (hrounds : s.rounds + l.length < s.cfg.pollBudget)
    (hffc : s.ffc + l.count s.cfg.absentByte < s.cfg.ffLimit) :
    ∃ u : State, Host.Core.run Sys2Proof.core l.length s = .next u ∧ u.Polling ∧ u.HostDone ∧
      s.Recorded (l.map (sampleEntry s.cfg s.addr)) u ∧ u.issued = s.issued ∧
      u.prevIdle = false ∧ u.rounds = s.rounds + l.length ∧
      u.ffc = s.ffc + l.count s.cfg.absentByte := by
  induction l generalizing s with
  | nil => exact ⟨s, rfl, h, host, ⟨by simp, rfl, rfl, rfl, rfl⟩, rfl, hprev, rfl, rfl⟩
  | cons v l ih =>
    rw [List.length_cons] at hrounds
    rw [List.count_cons] at hffc
    have busy := hbusy v List.mem_cons_self
    have notLimit : ¬ s.MeetsLimit v := by
      rintro ⟨rfl, limit⟩
      simp only [beq_self_eq_true, if_true] at hffc
      omega
    have notConfirms : ¬ s.ConfirmsIdle v := fun confirms => busy confirms.1
    have notBudget : ¬ s.UsesBudget v := by
      simp only [State.UsesBudget, hprev, reduceCtorEq, if_false]
      omega
    obtain ⟨limit, -⟩ | ⟨-, ⟨confirms, -⟩ | ⟨-, ⟨budget, -⟩ | ⟨-, hstep⟩⟩⟩ :=
      h.step_cases host.1.1 henv
    · exact absurd limit notLimit
    · exact absurd confirms notConfirms
    · exact absurd budget notBudget
    have rounds : (State.pollOn v s.withSample).rounds = s.rounds + 1 := by
      simp [State.pollOn, State.sampled, hprev]
    have ffc : (State.pollOn v s.withSample).ffc =
        s.ffc + if v == s.cfg.absentByte then 1 else 0 := by
      by_cases habsent : v = s.cfg.absentByte <;>
        simp [State.pollOn, State.sampled, habsent]
    have prev : (State.pollOn v s.withSample).prevIdle = false := decide_eq_false busy
    have recorded := State.recorded_pollOn henv
    have cfg : (State.pollOn v s.withSample).cfg = s.cfg := State.pollOn_cfg ..
    obtain ⟨op, addr, -⟩ := recorded.latches
    obtain ⟨u, hrun, hpoll, hhost, hrec, hissued, hprev', hrounds', hffc'⟩ :=
      ih (h.pollOn notLimit notBudget) host.pollOn
        (by rw [State.pollOn_env, State.answered_env, henv]; rfl)
        (fun w hw => by
          rw [State.IdleSample, cfg, op]
          exact hbusy w (List.mem_cons_of_mem v hw)) prev
        (by rw [rounds, cfg]; omega) (by rw [ffc, cfg]; omega)
    rw [cfg, addr] at hrec
    rw [rounds] at hrounds'
    rw [ffc, cfg] at hffc'
    refine ⟨u, run_succ_eq_next_iff.mpr ⟨_, hstep, hrun⟩, hpoll, hhost, hrec.trans recorded,
      hissued.trans (State.pollOn_issued ..), hprev', ?_, ?_⟩
    · rw [hrounds', List.length_cons]
      omega
    · rw [hffc', List.count_cons]
      omega

/-! ### A poll that succeeds -/

/-- The poll in progress takes the samples `l` and succeeds with the last of them (R77). -/
def State.SucceedsOn (s : State) : List Byte → Prop
  | [] => False
  | v :: l => ¬ s.MeetsLimit v ∧ ((l = [] ∧ s.ConfirmsIdle v) ∨
      (¬ s.ConfirmsIdle v ∧ ¬ s.UsesBudget v ∧ (State.pollOn v s.withSample).SucceedsOn l))

/-- A poll up to its success, under any plan of the host. -/
theorem poll_run {H : Nat → State → Prop} (plan : HostPlan H) {k : Nat} (l : List Byte) {s : State}
    (h : s.Polling) (host : H (k + l.length) s) {rest : List AccPort}
    (henv : s.env = l.map sampleOf ++ rest) (succeeds : s.SucceedsOn l) :
    ∃ u : State, Host.Core.run Sys2Proof.core l.length s =
        .next ((if s.op = opWrcmd then State.goto .sel else State.complete) u) ∧
      s.Recorded (l.map (sampleEntry s.cfg s.addr)) u ∧ H k u ∧ u.ph = s.ph ∧
      u.issued = s.issued := by
  induction l generalizing s with
  | nil => exact succeeds.elim
  | cons v l ih =>
    obtain ⟨notLimit, ⟨rfl, confirms⟩ | ⟨notConfirms, notBudget, succeeds⟩⟩ := succeeds
    · obtain ⟨limit, -⟩ | ⟨-, ⟨-, hstep⟩ | ⟨notConfirms, -⟩⟩ :=
        h.step_cases (plan.low _ _ host) henv
      · exact absurd limit notLimit
      · exact ⟨_, run_one hstep, (State.recorded_withSample henv).sampled v,
          plan.next _ _ _ host (by simp) (by simp), by simp, by simp⟩
      · exact absurd confirms notConfirms
    · obtain ⟨limit, -⟩ | ⟨-, ⟨confirms, -⟩ | ⟨-, ⟨budget, -⟩ | ⟨-, hstep⟩⟩⟩ :=
        h.step_cases (plan.low _ _ host) henv
      · exact absurd limit notLimit
      · exact absurd confirms notConfirms
      · exact absurd budget notBudget
      have recorded := State.recorded_pollOn henv
      have cfg : (State.pollOn v s.withSample).cfg = s.cfg := State.pollOn_cfg ..
      obtain ⟨op, addr, -⟩ := recorded.latches
      obtain ⟨u, hrun, hrec, hhost, hph, hissued⟩ := ih (h.pollOn notLimit notBudget)
        (plan.next _ _ _ host (by simp) (by simp))
        (by rw [State.pollOn_env, State.answered_env, henv]; rfl) succeeds
      rw [op] at hrun
      rw [cfg, addr] at hrec
      exact ⟨u, run_succ_eq_next_iff.mpr ⟨_, hstep, hrun⟩, hrec.trans recorded, hhost,
        hph.trans (State.pollOn_ph ..), hissued.trans (State.pollOn_issued ..)⟩

/-- Two idle samples at the start of a poll are its success. -/
theorem State.Polling.succeedsOn_two {s : State} (h : s.Polling) (fresh : s.FreshCounts)
    {v w : Byte} (hv : s.IdleSample v) (hw : s.IdleSample w)
    (hbudget : 2 ≤ s.cfg.pollBudget ∨ s.cfg.pairedConfirm = true) : s.SucceedsOn [v, w] := by
  obtain ⟨hrounds, -, hprev⟩ := fresh
  have notLimit (t : State) (hcfg : t.cfg = s.cfg) {x : Byte} (hx : s.IdleSample x) :
      ¬ t.MeetsLimit x := by
    rintro ⟨rfl, -⟩
    rw [hcfg] at hx
    exact Params.absent_not_idle h.wf s.op hx
  have notBudget : ¬ s.UsesBudget v := by
    rintro (⟨unpaired, one⟩ | ⟨-, busy, -⟩)
    · simp only [unpaired, reduceCtorEq, or_false] at hbudget
      omega
    · exact busy hv
  have notConfirms : ¬ s.ConfirmsIdle v := fun confirms =>
    absurd (confirms.2.symm.trans hprev) nofun
  let t := State.pollOn v s.withSample
  have cfg : t.cfg = s.cfg := State.pollOn_cfg ..
  have op : t.op = s.op := State.pollOn_op ..
  have second : t.ConfirmsIdle w := by
    refine ⟨?_, decide_eq_true hv⟩
    rw [State.IdleSample, cfg, op]
    exact hw
  rw [State.SucceedsOn, State.SucceedsOn]
  exact ⟨notLimit s rfl hv, .inr ⟨notConfirms, notBudget, notLimit t cfg hw, .inl ⟨rfl, second⟩⟩⟩

theorem State.enterPoll_polling {s : State} (hwf : s.cfg.wellFormed = true)
    (hpc : pcLegal s.op .poll s.ph = true) : (State.enterPoll s).Polling :=
  ⟨hwf, rfl, hpc, State.enterPoll_countersOk hwf⟩

/-! ### Writes and reads -/

section

variable {s : State} {req : Request} {w : Word} {rest : List AccPort}

/-- A step of a command on an answer of the environment. -/
theorem step_answer_of_env (hwf : s.cfg.wellFormed = true) (hrst : s.host.rst = false)
    (hq : s.request = some req) (henv : s.env = answerOk w :: rest) :
    step s = .next (State.onAnswer s.op s.st w (s.answered req)) := by
  obtain ⟨⟨hd, hf⟩, hdata⟩ := State.answersOk_of_env henv
  rw [step_answer s req hwf hrst hq hd hf, ← hdata]
  rfl

theorem State.recorded_of_env (req : Request) (henv : s.env = answerOk w :: rest) :
    s.Recorded [⟨req, req.okReply w⟩] (s.answered req) := by
  have recorded := s.recorded_answered req
  rwa [(State.answersOk_of_env henv).2] at recorded

end

/-- The three writes of an issue, where each is answered. -/
theorem issue_run {H : Nat → State → Prop} (plan : HostPlan H) {k : Nat} {s : State}
    (hwf : s.cfg.wellFormed = true) (hst : s.st = .sel) (hpc : pcLegal s.op .sel s.ph = true)
    (host : H (k + 3) s) {p q w : Word} {rest : List AccPort}
    (henv : s.env = answerOk p :: answerOk q :: answerOk w :: rest) :
    ∃ u : State, Host.Core.run Sys2Proof.core 3 s = .next
        ((if s.op = opWrcmd then State.phaseEnds else State.complete) (State.countIssue u)) ∧
      s.Recorded ((issueWrites s.cfg s.addr s.selector s.dataWord
        (triggerFlag s.cfg s.op)).map doneWrite) u ∧
      H k u ∧ u.ph = s.ph ∧ u.issued = s.issued := by
  let sel := Request.write .word s.addr s.cfg.selOff s.selector
  let dat := Request.write .word s.addr s.cfg.dinOff s.dataWord
  let ctl := Request.write .byte s.addr s.cfg.ctrlOff ((triggerFlag s.cfg s.op).setWidth 32)
  let s1 := State.goto .dat (s.answered sel)
  let s2 := State.goto .ctl (s1.answered dat)
  have hsel : s.request = some sel := by rw [s.request_legal (hst ▸ hpc), hst]
  have hdat : s1.request = some dat := s1.request_legal hpc
  have hctl : s2.request = some ctl := s2.request_legal hpc
  have env1 : s1.env = answerOk q :: answerOk w :: rest := by
    rw [State.goto_env, State.answered_env, henv]
    rfl
  have env2 : s2.env = answerOk w :: rest := by
    rw [State.goto_env, State.answered_env, env1]
    rfl
  have host1 : H (k + 2) s1 := plan.next _ _ s1 host rfl rfl
  have host2 : H (k + 1) s2 := plan.next _ _ s2 host1 rfl rfl
  have first := step_answer_of_env hwf (plan.low _ _ host) hsel henv
  have second := step_answer_of_env (s := s1) hwf (plan.low _ _ host1) hdat env1
  have third := step_answer_of_env (s := s2) hwf (plan.low _ _ host2) hctl env2
  rw [hst] at first
  have ended : State.onAnswer s2.op s2.st w (s2.answered ctl) =
      (if s.op = opWrcmd then State.phaseEnds else State.complete)
        (State.countIssue (s2.answered ctl)) :=
    (ite_apply (s.op = opWrcmd) State.phaseEnds State.complete _).symm
  rw [ended] at third
  have rec1 : s.Recorded [doneWrite sel] s1 :=
    (State.recorded_of_env sel henv).congr rfl rfl rfl rfl rfl
  have rec2 : s1.Recorded [doneWrite dat] s2 :=
    (State.recorded_of_env dat env1).congr rfl rfl rfl rfl rfl
  have rec3 : s2.Recorded [doneWrite ctl] (s2.answered ctl) := State.recorded_of_env ctl env2
  exact ⟨s2.answered ctl, run_succ_eq_next_iff.mpr ⟨s1, first, run_succ_eq_next_iff.mpr
    ⟨s2, second, run_one third⟩⟩, rec3.trans (rec2.trans rec1), plan.next _ _ _ host2 rfl rfl,
    rfl, rfl⟩

/-- The two reads of RDCMD and its acknowledge, where each is answered. -/
theorem rdcmd_run {s : State} (hwf : s.cfg.wellFormed = true) (hst : s.st = .rd1)
    (hpc : pcLegal s.op .rd1 s.ph = true) (host : s.HostDone) {v1 v2 w : Word}
    {rest : List AccPort} (henv : s.env = answerOk v1 :: answerOk v2 :: answerOk w :: rest) :
    ∃ u : State, Host.Core.run Sys2Proof.core 3 s = .next (State.complete u) ∧
      s.Recorded
        [⟨.read .word s.addr s.cfg.dout1Off, .value v1⟩,
         ⟨.read .word s.addr s.cfg.dout2Off, .value v2⟩,
         doneWrite (.write .byte s.addr s.cfg.ctrlOff (s.cfg.readBitFlag.setWidth 32))] u ∧
      u.issued = s.issued ∧ u.d1 = v1 ∧ u.d2 = v2 := by
  let rd1 := Request.read .word s.addr s.cfg.dout1Off
  let rd2 := Request.read .word s.addr s.cfg.dout2Off
  let ack := Request.write .byte s.addr s.cfg.ctrlOff (s.cfg.readBitFlag.setWidth 32)
  let s1 := State.goto .rd2 { s.answered rd1 with d1 := v1 }
  let s2 := State.goto .ack { s1.answered rd2 with d2 := v2 }
  have hrd1 : s.request = some rd1 := by rw [s.request_legal (hst ▸ hpc), hst]
  have hrd2 : s1.request = some rd2 := s1.request_legal hpc
  have hack : s2.request = some ack := s2.request_legal hpc
  have env1 : s1.env = answerOk v2 :: answerOk w :: rest := by
    rw [State.goto_env, State.answered_env, henv]
    rfl
  have env2 : s2.env = answerOk w :: rest := by
    rw [State.goto_env, State.answered_env, env1]
    rfl
  have host1 : s1.HostDone := host.of_next rfl rfl
  have host2 : s2.HostDone := host1.of_next rfl rfl
  have first := step_answer_of_env hwf host.1.1 hrd1 henv
  have second := step_answer_of_env (s := s1) hwf host1.1.1 hrd2 env1
  have third := step_answer_of_env (s := s2) hwf host2.1.1 hack env2
  rw [hst] at first
  have rec1 : s.Recorded [⟨rd1, .value v1⟩] s1 :=
    (State.recorded_of_env rd1 henv).congr rfl rfl rfl rfl rfl
  have rec2 : s1.Recorded [⟨rd2, .value v2⟩] s2 :=
    (State.recorded_of_env rd2 env1).congr rfl rfl rfl rfl rfl
  have rec3 : s2.Recorded [doneWrite ack] (s2.answered ack) := State.recorded_of_env ack env2
  exact ⟨s2.answered ack, run_succ_eq_next_iff.mpr ⟨s1, first, run_succ_eq_next_iff.mpr
    ⟨s2, second, run_one third⟩⟩, rec3.trans (rec2.trans rec1), rfl, rfl, rfl⟩

/-! ### From the offer on -/

section

variable {s : State} {i : Instr} (h : s.Offers i)
include h

/-- The step that accepts the offered command. -/
theorem State.Offers.step : step s = .next (State.acceptCommand i s) := by
  obtain ⟨hwf, idle, silent, hvalid, hdecode⟩ := h
  exact step_accept s i hwf silent.1 idle hvalid hdecode

theorem State.Offers.hostDone : (State.acceptCommand i s).HostDone := by
  obtain ⟨-, -, silent, -, -⟩ := h
  exact silent.accept.congr (State.acceptCommand_host i s) (State.acceptCommand_hostNext i s)

theorem State.Offers.encode_eq : encode i = s.host.cmdWord := by
  obtain ⟨-, -, -, -, hdecode⟩ := h
  exact encodeOfDecodeIsIdentity _ i hdecode

theorem State.Offers.addr : (State.acceptCommand i s).addr = addrField s.host.cmdWord := by
  have latched := (State.acceptCommand_latchedWord i s).trans h.encode_eq
  obtain ⟨-, haddr, -⟩ := State.latches_of_latchedWord latched
  exact haddr

/-- `Accept` of a command that starts with a poll. -/
theorem State.Offers.polling
    (hop : i.opcode = opWaitrd ∨ i.opcode = opWaitwr ∨ i.opcode = opWrcmd) :
    (State.acceptCommand i s).Polling ∧ (State.acceptCommand i s).FreshCounts := by
  obtain ⟨hwf, -⟩ := h
  cases i with
  | waitrd | waitwr | wrcmd =>
    exact ⟨State.enterPoll_polling hwf rfl, State.enterPoll_freshCounts _⟩
  | issuerd | issuewr | rdcmd =>
    simp [Instr.opcode, opWaitrd, opWaitwr, opIssuerd, opIssuewr, opRdcmd, opWrcmd] at hop

end

/-- A result without data words (R18). -/
theorem State.result_of_other {t : State} (hres : t.resValid = true) (hop : t.op ≠ opRdcmd) :
    t.result = some ⟨t.status, t.issued, none⟩ := by
  simp [State.result, hres, hop]

theorem bytesAfter_samples (p : Params) (addr : BitVec ADDR_W) (l : List Byte) (m : Memory) :
    bytesAfter (l.map (sampleEntry p addr)) m = m := by
  induction l with
  | nil => rfl
  | cons v l ih => exact ih

/-- A wait that has ended: what its samples have recorded is its whole trace. -/
theorem wait_concluded {s t : State} {i : Instr} (h : s.Offers i)
    (hop : i.opcode = opWaitrd ∨ i.opcode = opWaitwr) {l : List Byte} {n : Nat}
    (hrun : Host.Core.run Sys2Proof.core n (State.acceptCommand i s) = .next t)
    (hrec : (State.acceptCommand i s).Recorded
      (l.map (sampleEntry s.cfg (State.acceptCommand i s).addr)) t)
    (hst : t.st = .idle) (hres : t.resValid = true) (hissued : t.issued = 0) :
    Host.Core.run Sys2Proof.core (1 + n) s = .next t ∧ t.st = .idle ∧
      t.result = some ⟨t.status, 0, none⟩ ∧ t.env = s.env.drop l.length ∧
      t.trace = s.trace ++ l.map (sampleEntry s.cfg (addrField s.host.cmdWord)) ∧
      t.written = s.written := by
  obtain ⟨op, -⟩ := hrec.latches
  obtain ⟨trace, written, env, -, -⟩ := hrec
  rw [h.addr, State.acceptCommand_trace] at trace
  rw [bytesAfter_samples, State.acceptCommand_written] at written
  rw [State.acceptCommand_env, List.length_map] at env
  rw [State.acceptCommand_op] at op
  have notRdcmd : t.op ≠ opRdcmd := by
    rw [op]
    obtain hop | hop := hop <;> rw [hop] <;> decide
  refine ⟨run_add (run_one h.step) hrun, hst, ?_, env, trace, written⟩
  rw [State.result_of_other hres notRdcmd, hissued]

end Machine

end Sys2Proof
end

section
/-! PROOFS. The waits from offer to result: two idle samples, an absent device, and a device that stays
busy (40_poller.md R75, R77, R78). -/

namespace Sys2Proof

open Config Machine

/-- Settles O24: the first sample is counted, the second confirms it. -/
theorem waitCompletesOnTwoIdleSamples : Obligations.WaitCompletesOnTwoIdleSamples := by
  intro s i u v rest h hop hu hv hbudget henv
  obtain ⟨polling, fresh⟩ := h.polling (by tauto)
  have idle {x : Byte} (hx : x &&& busyMask s.cfg i.opcode = 0) :
      (State.acceptCommand i s).IdleSample x := by
    rwa [State.IdleSample, State.acceptCommand_cfg, State.acceptCommand_op]
  have succeeds := polling.succeedsOn_two fresh (idle hu) (idle hv)
    (by rwa [State.acceptCommand_cfg])
  obtain ⟨t, hrun, hrec, -, -, hissued⟩ := poll_run hostPlan_done (k := 0) [u, v] polling
    h.hostDone (by rw [State.acceptCommand_env, henv]; rfl) succeeds
  have notWrcmd : i.opcode ≠ opWrcmd := by
    obtain hop | hop := hop <;> rw [hop] <;> decide
  rw [State.acceptCommand_op, if_neg notWrcmd] at hrun
  rw [State.acceptCommand_cfg] at hrec
  obtain ⟨hrun, hst, hresult, henv', htrace, hwritten⟩ := wait_concluded (l := [u, v]) h hop hrun
    hrec.complete (State.complete_st t) (State.complete_resValid t)
    (by rw [State.complete_issued, hissued, State.acceptCommand_issued])
  exact ⟨_, hrun, hst, hresult, by rw [henv', henv]; rfl, htrace, hwritten⟩

namespace Machine

section

variable {s : State} {i : Instr} (h : s.Offers i) (hop : i.opcode = opWaitrd ∨ i.opcode = opWaitwr)
  {l : List Byte} {v : Byte} {rest : List AccPort}
  (henv : s.env = (l ++ [v]).map sampleOf ++ rest)
  (hbusy : ∀ x ∈ l, x &&& busyMask s.cfg i.opcode ≠ 0)
  (hrounds : l.length < s.cfg.pollBudget) (hffc : l.count s.cfg.absentByte < s.cfg.ffLimit)
include h hop henv hbusy hrounds hffc

/-- A wait up to its last sample, where all before it are busy and within both limits: the state that
this sample finds. -/
theorem wait_before_last :
    ∃ u : State, Host.Core.run Sys2Proof.core l.length (State.acceptCommand i s) = .next u ∧
      u.Polling ∧ u.HostDone ∧ u.env = sampleOf v :: rest ∧ u.cfg = s.cfg ∧ u.op = i.opcode ∧
      u.issued = 0 ∧ u.prevIdle = false ∧ u.rounds = l.length ∧
      u.ffc = l.count s.cfg.absentByte ∧
      (State.acceptCommand i s).Recorded
        ((l ++ [v]).map (sampleEntry s.cfg (State.acceptCommand i s).addr)) u.withSample := by
  obtain ⟨polling, fresh⟩ := h.polling (by tauto)
  obtain ⟨rounds0, ffc0, prev0⟩ := fresh
  have henv0 : (State.acceptCommand i s).env = l.map sampleOf ++ sampleOf v :: rest := by
    rw [State.acceptCommand_env, henv]
    simp
  obtain ⟨u, hrun, hpoll, host, hrec, hissued, hprev, rounds, ffc⟩ := busy_run l polling h.hostDone
    henv0
    (fun x hx => by
      rw [State.IdleSample, State.acceptCommand_cfg, State.acceptCommand_op]
      exact hbusy x hx)
    prev0 (by rwa [rounds0, State.acceptCommand_cfg, Nat.zero_add])
    (by rwa [ffc0, State.acceptCommand_cfg, Nat.zero_add])
  rw [rounds0, Nat.zero_add] at rounds
  rw [ffc0, State.acceptCommand_cfg, Nat.zero_add] at ffc
  rw [State.acceptCommand_issued] at hissued
  rw [State.acceptCommand_cfg] at hrec
  obtain ⟨op, addr, -⟩ := hrec.latches
  obtain ⟨-, -, env, cfg, -⟩ := id hrec
  rw [henv0, List.length_map, List.drop_left' (List.length_map _)] at env
  rw [State.acceptCommand_cfg] at cfg
  have recorded := (State.recorded_withSample env).trans hrec
  rw [cfg, addr] at recorded
  refine ⟨u, hrun, hpoll, host, env, cfg, op.trans (State.acceptCommand_op i s), hissued, hprev,
    rounds, ffc, ?_⟩
  rw [List.map_append]
  exact recorded

end

end Machine

/-- Settles O25: all samples but the last stay below the limit, and the last one meets it. -/
theorem absentDeviceEndsAtTheLimit : Obligations.AbsentDeviceEndsAtTheLimit := by
  intro s i rest h hop hlimit henv
  obtain ⟨n, hn⟩ := Nat.exists_eq_add_of_le' (Params.limit_bounds h.1).1
  have samples : List.replicate s.cfg.ffLimit s.cfg.absentByte =
      List.replicate n s.cfg.absentByte ++ [s.cfg.absentByte] := by
    rw [hn, List.replicate_succ']
  have henv' : s.env = (List.replicate n s.cfg.absentByte ++ [s.cfg.absentByte]).map sampleOf ++
      rest := by
    rw [← samples, List.map_replicate, henv]
  obtain ⟨u, hrun, hpoll, host, env, cfg, op, hissued, hprev, rounds, ffc, recorded⟩ :=
    wait_before_last h hop henv'
      (fun x hx => List.eq_of_mem_replicate hx ▸ Params.absent_not_idle h.1 i.opcode)
      (by rw [List.length_replicate]; omega) (by rw [List.count_replicate_self]; omega)
  rw [List.count_replicate_self] at ffc
  have limit : u.MeetsLimit s.cfg.absentByte := ⟨by rw [cfg], by rw [ffc, cfg, hn]⟩
  obtain ⟨-, last⟩ | ⟨notLimit, -⟩ := hpoll.step_cases host.1.1 env
  · obtain ⟨hrun, hst, hresult, henv'', htrace, hwritten⟩ :=
      wait_concluded h hop (run_add hrun (run_one last))
        ((recorded.sampled s.cfg.absentByte).raise .deviceUnresponsive) (State.raise_st _ _)
        (State.raise_resValid _ _) (by simpa using hissued)
    rw [List.length_replicate, ← hn] at hrun
    rw [henv, ← samples, List.drop_left' (by simp)] at henv''
    rw [← samples, List.map_replicate] at htrace
    exact ⟨_, hrun, hst, hresult, henv'', htrace, hwritten⟩
  · exact absurd limit notLimit

/-- Settles O26: all samples but the last stay below the budget, and the last one uses it up with the
round closed, under either value of `PAIRED_CONFIRM`. -/
theorem stuckDeviceTimesOutAfterTheBudget : Obligations.StuckDeviceTimesOutAfterTheBudget := by
  intro s i samples rest h hop hlength hsamples henv
  have hbudget := (Params.budget_bounds h.1).1
  obtain rfl | ⟨l, v, rfl⟩ := samples.eq_nil_or_concat
  · rw [List.length_nil] at hlength
    omega
  rw [List.concat_eq_append] at hlength hsamples henv ⊢
  rw [List.length_append, List.length_singleton] at hlength
  have present : s.cfg.absentByte ∉ l := fun hmem =>
    (hsamples _ (List.mem_append_left _ hmem)).2 rfl
  obtain ⟨busy, notAbsent⟩ := hsamples v (by simp)
  obtain ⟨u, hrun, hpoll, host, env, cfg, op, hissued, hprev, rounds, -, recorded⟩ :=
    wait_before_last h hop henv (fun x hx => (hsamples x (List.mem_append_left _ hx)).1)
      (by omega) (by rw [List.count_eq_zero.mpr present]; exact (Params.limit_bounds h.1).1)
  have notLimit : ¬ u.MeetsLimit v := fun limit => notAbsent (limit.1.trans (by rw [cfg]))
  have notIdle : ¬ u.IdleSample v := by
    rw [State.IdleSample, cfg, op]
    exact busy
  have budget : u.UsesBudget v := by
    rw [State.UsesBudget, cfg, hprev, rounds]
    cases s.cfg.pairedConfirm
    · exact .inl ⟨rfl, hlength⟩
    · exact .inr ⟨rfl, notIdle, hlength⟩
  obtain ⟨limit, -⟩ | ⟨-, ⟨confirms, -⟩ | ⟨-, ⟨-, last⟩ | ⟨notBudget, -⟩⟩⟩ :=
    hpoll.step_cases host.1.1 env
  · exact absurd limit notLimit
  · exact absurd confirms.1 notIdle
  · obtain ⟨hrun, hst, hresult, henv', htrace, hwritten⟩ :=
      wait_concluded h hop (run_add hrun (run_one last))
        ((recorded.pollOn v).raise .timeout) (State.raise_st _ _) (State.raise_resValid _ _)
        (by simpa using hissued)
    rw [hlength] at hrun
    rw [henv, List.drop_left' (List.length_map _)] at henv'
    exact ⟨_, hrun, hst, hresult, henv', htrace, hwritten⟩
  · exact absurd budget notBudget

end Sys2Proof
end

section
/-! PROOFS. The issuing commands and RDCMD from offer to result, where every transaction is answered:
41_issuer.md R91 to R94, 42_sequences.md R102, R106 to R108. -/

namespace Sys2Proof

open Config Machine

/-- Settles O29: `Accept` leads to SEL, and the third write completes the command. -/
theorem issueRunsToItsEnd : Obligations.IssueRunsToItsEnd := by
  intro s d x y r z p q w rest i flag h hi henv
  let t := State.acceptCommand i s
  have hst : t.st = .sel := by obtain ⟨rfl, -⟩ | ⟨rfl, -⟩ := hi <;> rfl
  have hpc : pcLegal t.op .sel t.ph = true := by obtain ⟨rfl, -⟩ | ⟨rfl, -⟩ := hi <;> rfl
  have haddr : t.addr = d.bits := by obtain ⟨rfl, -⟩ | ⟨rfl, -⟩ := hi <;> rfl
  have hselector : t.selector = x := by obtain ⟨rfl, -⟩ | ⟨rfl, -⟩ := hi <;> rfl
  have hdata : t.dataWord = y := by obtain ⟨rfl, -⟩ | ⟨rfl, -⟩ := hi <;> rfl
  have hflag : triggerFlag t.cfg t.op = flag := by
    obtain ⟨rfl, rfl⟩ | ⟨rfl, rfl⟩ := hi <;> rfl
  have hop : t.op ≠ opWrcmd ∧ t.op ≠ opRdcmd := by
    obtain ⟨rfl, -⟩ | ⟨rfl, -⟩ := hi <;> exact ⟨nofun, nofun⟩
  have hcfg : t.cfg = s.cfg := State.acceptCommand_cfg i s
  obtain ⟨u, hrun, hrec, -, -, hissued⟩ := issue_run hostPlan_done (k := 0) (hcfg ▸ h.1) hst hpc
    h.hostDone (by rw [State.acceptCommand_env, henv])
  obtain ⟨op, -⟩ := hrec.latches
  obtain ⟨trace, -, env, -⟩ := hrec
  rw [if_neg hop.1] at hrun
  rw [hselector, hdata, hflag, haddr, hcfg, State.acceptCommand_trace] at trace
  rw [State.acceptCommand_env, henv] at env
  refine ⟨_, run_add (run_one h.step) hrun, rfl, ?_, env, trace⟩
  rw [State.result_of_other (State.complete_resValid _) (by
      rw [State.complete_op, State.countIssue_op, op]
      exact hop.2), State.complete_issued, State.countIssue_issued, hissued,
    State.acceptCommand_issued]
  rfl

/-- Settles O33: `Accept` leads to RD1, and the acknowledge completes the command. -/
theorem rdcmdRunsToItsEnd : Obligations.RdcmdRunsToItsEnd := by
  intro s d r x y z v1 v2 w rest h henv
  obtain ⟨u, hrun, hrec, hissued, hd1, hd2⟩ := rdcmd_run
    (s := State.acceptCommand (.rdcmd d r x y z) s) h.1 rfl rfl h.hostDone henv
  obtain ⟨op, -⟩ := hrec.latches
  obtain ⟨trace, -, env, -⟩ := hrec
  rw [State.acceptCommand_env, henv] at env
  refine ⟨_, run_add (run_one h.step) hrun, rfl, ?_, env, trace⟩
  have collected : u.op = opRdcmd := op
  simp [State.result, collected, hissued, hd1, hd2]

namespace Machine

theorem phaseWrites_encode_one (p : Params) (d : DevAddr) (b0 b1 b2 : Byte) (x y z : Word) :
    phaseWrites p (encode (.wrcmd d b0 b1 b2 x y z)) .one =
      issueWrites p d.bits ((internalRegisterNumber b0 b1 b2).setWidth 32) x p.writeBusy := by
  simp [phaseWrites, encode]

theorem phaseWrites_encode_two (p : Params) (d : DevAddr) (b0 b1 b2 : Byte) (x y z : Word) :
    phaseWrites p (encode (.wrcmd d b0 b1 b2 x y z)) .two =
      issueWrites p d.bits y z p.writeBusy := by
  simp [phaseWrites, encode]

/-- The writes of an issue of WRCMD are those of its phase (R102). -/
theorem State.issueWrites_wrcmd {s : State} (hop : s.op = opWrcmd) :
    issueWrites s.cfg s.addr s.selector s.dataWord (triggerFlag s.cfg s.op) =
      phaseWrites s.cfg s.latchedWord s.ph := by
  have flag : triggerFlag s.cfg s.op = s.cfg.writeBusy := by
    rw [hop]
    rfl
  cases hph : s.ph <;>
    simp [State.phaseWrites_one, State.phaseWrites_two, State.selector, State.dataWord, hop, hph,
      triggerFlag, opWrcmd, opIssuerd]

/-- The three writes of one phase of a WRCMD, where each is answered. -/
theorem wrcmd_issue_run {s : State} (hwf : s.cfg.wellFormed = true) (hst : s.st = .sel)
    (hop : s.op = opWrcmd) (host : s.HostDone) {p q r : Word} {rest : List AccPort}
    (henv : s.env = answerOk p :: answerOk q :: answerOk r :: rest) :
    ∃ u : State, Host.Core.run Sys2Proof.core 3 s = .next (State.phaseEnds (State.countIssue u)) ∧
      s.Recorded ((phaseWrites s.cfg s.latchedWord s.ph).map doneWrite) u ∧
      u.HostDone ∧ u.ph = s.ph ∧ u.issued = s.issued := by
  obtain ⟨u, hrun, hrec, after⟩ := issue_run hostPlan_done (k := 0) hwf hst
    (by rw [hop, pcLegal_wrcmd_iff]; tauto) host henv
  rw [if_pos hop] at hrun
  rw [State.issueWrites_wrcmd hop] at hrec
  exact ⟨u, hrun, hrec, after⟩

/-- The end of phase 1 enters the second poll (R102). -/
theorem State.phaseEnds_polling {s : State} (hwf : s.cfg.wellFormed = true)
    (hop : s.op = opWrcmd) (hph : s.ph = .one) :
    (State.phaseEnds s).Polling ∧ (State.phaseEnds s).FreshCounts ∧
      (State.phaseEnds s).ph = .two := by
  rw [State.phaseEnds_one hph]
  exact ⟨State.enterPoll_polling hwf (congrArg (pcLegal · .poll .two) hop),
    State.enterPoll_freshCounts _, rfl⟩

theorem State.Recorded.phaseEnds {l : List Transaction} {s t : State} (h : s.Recorded l t) :
    s.Recorded l (State.phaseEnds t) := by
  cases hph : t.ph with
  | one => exact (State.phaseEnds_one hph) ▸ h.congr rfl rfl rfl rfl rfl
  | two => exact (State.phaseEnds_two hph) ▸ h.complete

@[simp] theorem State.phaseEnds_issued (s : State) : (State.phaseEnds s).issued = s.issued := by
  cases hph : s.ph with
  | one => rw [State.phaseEnds_one hph]; rfl
  | two => rw [State.phaseEnds_two hph]; rfl

theorem State.HostDone.phaseEnds {s : State} (h : s.HostDone) : (State.phaseEnds s).HostDone := by
  cases hph : s.ph with
  | one => exact (State.phaseEnds_one hph) ▸ h.congr rfl rfl
  | two => exact (State.phaseEnds_two hph) ▸ h.congr rfl rfl

/-- One phase of a WRCMD, where its poll succeeds and its three writes are answered. -/
theorem wrcmd_phase_run {s : State} (h : s.Polling) (hop : s.op = opWrcmd) (host : s.HostDone)
    {l : List Byte} {p q r : Word} {rest : List AccPort}
    (henv : s.env = l.map sampleOf ++ answerOk p :: answerOk q :: answerOk r :: rest)
    (succeeds : s.SucceedsOn l) :
    ∃ u : State, Host.Core.run Sys2Proof.core (l.length + 3) s =
        .next (State.phaseEnds (State.countIssue u)) ∧
      s.Recorded (l.map (sampleEntry s.cfg s.addr) ++
        (phaseWrites s.cfg s.latchedWord s.ph).map doneWrite) u ∧
      u.HostDone ∧ u.ph = s.ph ∧ u.issued = s.issued := by
  obtain ⟨u, hrun, hrec, host', hph, hissued⟩ :=
    poll_run hostPlan_done (k := 0) l h host henv succeeds
  rw [if_pos hop] at hrun
  obtain ⟨op, -⟩ := hrec.latches
  obtain ⟨-, -, env, cfg, latched⟩ := id hrec
  rw [henv, List.length_map, List.drop_left' (List.length_map _)] at env
  obtain ⟨t, hrun', hrec', host'', hph', hissued'⟩ := wrcmd_issue_run
    (s := State.goto .sel u) (cfg ▸ h.wf) rfl (op.trans hop) (host'.congr rfl rfl) env
  have writes : phaseWrites (State.goto .sel u).cfg (State.goto .sel u).latchedWord
      (State.goto .sel u).ph = phaseWrites s.cfg s.latchedWord s.ph := by
    rw [← cfg, ← latched, ← hph]
    rfl
  rw [writes] at hrec'
  exact ⟨t, run_add hrun hrun', hrec'.trans (hrec.goto .sel), host'', hph'.trans hph,
    hissued'.trans hissued⟩

/-- A WRCMD up to the second poll, where the first one succeeds: phase 1 is recorded, and one issue
is counted. -/
theorem wrcmd_phase_one {s : State} {d : DevAddr} {b0 b1 b2 : Byte} {x y z : Word}
    (h : s.Offers (.wrcmd d b0 b1 b2 x y z)) {l : List Byte} {p q r : Word} {rest : List AccPort}
    (henv : s.env = l.map sampleOf ++ answerOk p :: answerOk q :: answerOk r :: rest)
    (succeeds : (State.acceptCommand (.wrcmd d b0 b1 b2 x y z) s).SucceedsOn l) :
    ∃ t : State, Host.Core.run Sys2Proof.core (1 + (l.length + 3)) s = .next t ∧
      (State.acceptCommand (.wrcmd d b0 b1 b2 x y z) s).Recorded
        (l.map (sampleEntry s.cfg d.bits) ++
          (phaseWrites s.cfg (encode (.wrcmd d b0 b1 b2 x y z)) .one).map doneWrite) t ∧
      t.Polling ∧ t.FreshCounts ∧ t.HostDone ∧ t.op = opWrcmd ∧ t.ph = .two ∧ t.issued = 1 := by
  obtain ⟨polling, -⟩ := h.polling (.inr (.inr rfl))
  obtain ⟨u, hrun, hrec, host, hph, hissued⟩ :=
    wrcmd_phase_run polling rfl h.hostDone henv succeeds
  obtain ⟨op, -⟩ := hrec.latches
  obtain ⟨-, -, -, cfg, -⟩ := id hrec
  obtain ⟨polling', fresh, ph⟩ :=
    State.phaseEnds_polling (s := State.countIssue u) (cfg ▸ h.1) op hph
  have host' : (State.countIssue u).HostDone := host.congr rfl rfl
  have rec' := hrec.countIssue.phaseEnds
  refine ⟨_, run_add (run_one h.step) hrun, rec', polling', fresh, host'.phaseEnds,
    rec'.latches.1, ph, ?_⟩
  rw [State.phaseEnds_issued, State.countIssue_issued, hissued, State.acceptCommand_issued]
  rfl

/-- A WRCMD from its second poll on, where that succeeds: it ends with OK. -/
theorem wrcmd_phase_two {s : State} (h : s.Polling) (hop : s.op = opWrcmd) (host : s.HostDone)
    (hph : s.ph = .two) {l : List Byte} {p q r : Word} {rest : List AccPort}
    (henv : s.env = l.map sampleOf ++ answerOk p :: answerOk q :: answerOk r :: rest)
    (succeeds : s.SucceedsOn l) :
    ∃ t : State, Host.Core.run Sys2Proof.core (l.length + 3) s = .next t ∧
      s.Recorded (l.map (sampleEntry s.cfg s.addr) ++
        (phaseWrites s.cfg s.latchedWord .two).map doneWrite) t ∧
      t.st = .idle ∧ t.result = some ⟨.ok, s.issued + 1, none⟩ := by
  obtain ⟨u, hrun, hrec, -, hph', hissued⟩ := wrcmd_phase_run h hop host henv succeeds
  rw [hph] at hrec
  have ended : State.phaseEnds (State.countIssue u) = State.complete (State.countIssue u) :=
    State.phaseEnds_two (hph'.trans hph)
  rw [ended] at hrun
  obtain ⟨op, -⟩ := hrec.latches
  have notRdcmd : (State.complete (State.countIssue u)).op ≠ opRdcmd := by
    rw [State.complete_op, State.countIssue_op, op, hop]
    decide
  refine ⟨_, hrun, hrec.countIssue.complete, rfl, ?_⟩
  rw [State.result_of_other rfl notRdcmd, State.complete_issued, State.countIssue_issued, hissued]
  rfl

end Machine

/-- Settles O34: phase 1 leads into the poll of phase 2, and phase 2 completes the command. -/
theorem wrcmdRunsToItsEnd : Obligations.WrcmdRunsToItsEnd := by
  intro s d b0 b1 b2 x y z u1 u2 u3 u4 p1 p2 p3 p4 p5 p6 rest h hidle hbudget henv
  simp only [List.forall_mem_cons] at hidle
  obtain ⟨idle1, idle2, idle3, idle4, -⟩ := hidle
  have succeeds {t : State} (polling : t.Polling) (fresh : t.FreshCounts) (hop : t.op = opWrcmd)
      (hcfg : t.cfg = s.cfg) {v w : Byte} (hv : v &&& s.cfg.writeBusy = 0)
      (hw : w &&& s.cfg.writeBusy = 0) : t.SucceedsOn [v, w] := by
    refine polling.succeedsOn_two fresh ?_ ?_ (hcfg ▸ hbudget)
    · rwa [State.IdleSample, hop, hcfg]
    · rwa [State.IdleSample, hop, hcfg]
  obtain ⟨polling, fresh⟩ := h.polling (.inr (.inr rfl))
  obtain ⟨t, hrun, hrec, polling', fresh', host, op, ph, issued⟩ :=
    wrcmd_phase_one (l := [u1, u2]) h henv (succeeds polling fresh rfl rfl idle1 idle2)
  obtain ⟨-, (addr : t.addr = d.bits), -⟩ := hrec.latches
  obtain ⟨-, -, env, cfg, latched⟩ := id hrec
  obtain ⟨u, hrun', hrec', hst, hresult⟩ := wrcmd_phase_two (l := [u3, u4]) polling' op host ph
    (env.trans (congrArg (List.drop 5) henv)) (succeeds polling' fresh' op cfg idle3 idle4)
  rw [issued] at hresult
  rw [cfg, addr, latched] at hrec'
  obtain ⟨trace, -, env', -⟩ := hrec'.trans hrec
  refine ⟨u, run_add hrun hrun', hst, hresult, env'.trans (congrArg (List.drop 10) henv), ?_⟩
  simpa [phaseWrites_encode_one, phaseWrites_encode_two] using trace

end Sys2Proof
end

section
/-! PROOFS. WRCMD with any answers (42_sequences.md R103): its completed writes are a first part of the
six, and `issued` counts the triggers among them. -/

namespace Sys2Proof

open Config Machine

namespace Machine

section

variable (p : Params) (cw : CmdWord)

/-- The six writes of the WRCMD with the command word `cw` (R105). -/
def sixWrites : List Request := phaseWrites p cw .one ++ phaseWrites p cw .two

/-- `tr` is `start` and what a WRCMD has added to it, of which the first `k` of its six writes
completed. -/
def FirstPart (start : List Transaction) (k : Nat) (tr : List Transaction) : Prop :=
  ∃ l, tr = start ++ l ∧ completedWrites l = (sixWrites p cw).take k

end

/-- How many writes the phases before `ph` have made. -/
def writesBefore : Phase → Nat
  | .one => 0
  | .two => 3

/-- How many triggers the phases before `ph` have made. -/
def triggersBefore : Phase → Nat
  | .one => 0
  | .two => 1

/-- What the status of a WRCMD that has ended says about the number of its completed writes (R103). -/
def Outcome : Status → Nat → Prop
  | .ok, k => k = 6
  | .timeout, k | .deviceUnresponsive, k => k = 0 ∨ k = 3
  | .accessFailure, k => k < 6
  | .illegalCommand, _ => False

/-- All six writes are made only where the command ends with OK. -/
theorem outcome_six {status : Status} (h : Outcome status 6) : status = .ok := by
  cases status with
  | ok => rfl
  | timeout | deviceUnresponsive => exact absurd h (by simp [Outcome])
  | accessFailure => exact absurd h (Nat.lt_irrefl 6)
  | illegalCommand => exact h.elim

section

variable {p : Params} {cw : CmdWord} {start tr : List Transaction} {k : Nat}

theorem sixWrites_length : (sixWrites p cw).length = 6 := rfl

/-- The triggers are the third and the sixth write. -/
theorem triggers_sixWrites (hk : k ≤ 6) : triggers p ((sixWrites p cw).take k) = k / 3 := by
  interval_cases k <;> simp [triggers, sixWrites, phaseWrites, issueWrites]

/-- The write that a WRCMD makes next, in the six. -/
theorem sixWrites_next {ph : Phase} {r : Request} (h : (phaseWrites p cw ph)[k]? = some r) :
    (sixWrites p cw)[writesBefore ph + k]? = some r := by
  obtain ⟨hk, -⟩ := List.getElem?_eq_some_iff.mp h
  cases ph with
  | one => rw [writesBefore, Nat.zero_add, sixWrites, List.getElem?_append_left hk, h]
  | two =>
    have behind : (phaseWrites p cw .one).length ≤ writesBefore .two + k := Nat.le_add_right ..
    rw [sixWrites, List.getElem?_append_right behind, ← h]
    exact congrArg (fun j : Nat => (phaseWrites p cw .two)[j]?) (Nat.add_sub_cancel_left 3 k)

theorem completedWrites_append (l l' : List Transaction) :
    completedWrites (l ++ l') = completedWrites l ++ completedWrites l' :=
  List.filterMap_append

theorem FirstPart.refl (tr : List Transaction) : FirstPart p cw tr 0 tr := ⟨[], by simp, rfl⟩

/-- A sample or a failed transaction completes no write. -/
theorem FirstPart.noWrite (h : FirstPart p cw start k tr) {x : Transaction}
    (hx : completedWrites [x] = []) : FirstPart p cw start k (tr ++ [x]) := by
  obtain ⟨l, rfl, writes⟩ := h
  exact ⟨l ++ [x], by simp, by rw [completedWrites_append, hx, writes, List.append_nil]⟩

theorem FirstPart.write (h : FirstPart p cw start k tr) {r : Request}
    (hr : (sixWrites p cw)[k]? = some r) (hdone : completedWrites [doneWrite r] = [r]) :
    FirstPart p cw start (k + 1) (tr ++ [doneWrite r]) := by
  obtain ⟨l, rfl, writes⟩ := h
  exact ⟨l ++ [doneWrite r], by simp,
    by rw [completedWrites_append, hdone, writes, List.take_add_one, hr]; rfl⟩

end

theorem completedWrites_fail (r : Request) : completedWrites [⟨r, .fail⟩] = [] := by
  cases r <;> rfl

theorem completedWrites_phaseWrites {p : Params} {cw : CmdWord} {ph : Phase} {r : Request}
    (h : r ∈ phaseWrites p cw ph) : completedWrites [doneWrite r] = [r] := by
  cases ph <;>
    simp only [phaseWrites, issueWrites, List.mem_cons, List.not_mem_nil, or_false] at h <;>
    obtain rfl | rfl | rfl := h <;> rfl

/-! ## What every step of a WRCMD keeps -/

/-- The block holds the WRCMD `cw`, of whose writes `k` have completed and `m` are counted. -/
structure State.WrcmdAt (p : Params) (cw : CmdWord) (start : List Transaction) (k m : Nat)
    (s : State) : Prop where
  host : s.HostDone
  cfg : s.cfg = p
  latched : s.latchedWord = cw
  issued : s.issued = BitVec.ofNat _ m
  trace : FirstPart p cw start k s.trace

/-- The block is in IDLE after a WRCMD of whose writes `k` completed. -/
structure State.WrcmdEnded (p : Params) (cw : CmdWord) (start : List Transaction) (k : Nat)
    (s : State) : Prop where
  host : s.HostDone
  idle : s.st = .idle
  valid : s.resValid = true
  issued : s.issued = BitVec.ofNat _ (k / 3)
  trace : FirstPart p cw start k s.trace
  bound : k ≤ 6
  outcome : Outcome s.status k

/-- The WRCMD goes on, or has ended. -/
def State.WrcmdKept (p : Params) (cw : CmdWord) (start : List Transaction) (s : State) : Prop :=
  (s.st ≠ .idle ∧ s.WrcmdAt p cw start (writesBefore s.ph + writesMade s.st)
    (triggersBefore s.ph)) ∨
  ∃ k, s.WrcmdEnded p cw start k

section

variable {p : Params} {cw : CmdWord} {start : List Transaction} {s t : State} {k m : Nat}

theorem State.WrcmdAt.ticked (h : s.WrcmdAt p cw start k m) : s.ticked.WrcmdAt p cw start k m :=
  ⟨h.host.ticked, h.cfg, h.latched, h.issued, h.trace⟩

theorem State.WrcmdAt.record_noWrite (h : s.WrcmdAt p cw start k m) {req : Request} {y : Reply}
    (hx : completedWrites [⟨req, y⟩] = []) (lands : Bool) :
    (State.record req y lands s).WrcmdAt p cw start k m :=
  ⟨h.host, h.cfg, h.latched, h.issued, h.trace.noWrite hx⟩

theorem State.WrcmdAt.record_write (h : s.WrcmdAt p cw start (writesBefore s.ph + k) m)
    {req : Request} (hreq : (phaseWrites s.cfg s.latchedWord s.ph)[k]? = some req) (v : Word) :
    (State.record req (req.okReply v) true s).WrcmdAt p cw start (writesBefore s.ph + k + 1) m := by
  obtain ⟨host, rfl, rfl, issued, trace⟩ := h
  have mem := List.mem_of_getElem? hreq
  rw [okReply_phaseWrites mem]
  exact ⟨host, rfl, rfl, issued,
    trace.write (sixWrites_next hreq) (completedWrites_phaseWrites mem)⟩

theorem State.WrcmdAt.countIssue (h : s.WrcmdAt p cw start k m) :
    (State.countIssue s).WrcmdAt p cw start k (m + 1) :=
  ⟨h.host, h.cfg, h.latched,
    by rw [State.countIssue_issued, h.issued, BitVec.ofNat_add]; rfl, h.trace⟩

/-- A move to the sequencer state that stands for the writes made. -/
theorem State.WrcmdAt.goto {x : St} (h : s.WrcmdAt p cw start (writesBefore s.ph + writesMade x)
    (triggersBefore s.ph)) (hx : x ≠ .idle) : (State.goto x s).WrcmdKept p cw start :=
  .inl ⟨hx, h.host, h.cfg, h.latched, h.issued, h.trace⟩

theorem State.WrcmdAt.raise (h : s.WrcmdAt p cw start k (k / 3)) (e : Cause) (hk : k ≤ 6)
    (houtcome : Outcome e.status k) : (State.raise e s).WrcmdKept p cw start :=
  .inr ⟨k, h.host, rfl, rfl, h.issued, h.trace, hk, houtcome⟩

theorem State.WrcmdAt.congr (h : s.WrcmdAt p cw start k m) (u : State) (hhost : u.host = s.host)
    (hnext : u.hostNext = s.hostNext) (hcfg : u.cfg = s.cfg)
    (hlatched : u.latchedWord = s.latchedWord) (hissued : u.issued = s.issued)
    (htrace : u.trace = s.trace) : u.WrcmdAt p cw start k m :=
  ⟨h.host.congr hhost hnext, hcfg.trans h.cfg, hlatched.trans h.latched, hissued.trans h.issued,
    htrace ▸ h.trace⟩

/-- A phase starts with none or with all three writes of phase 1 made. -/
theorem writesBefore_cases (ph : Phase) :
    writesBefore ph = 0 ∧ triggersBefore ph = 0 ∨ writesBefore ph = 3 ∧ triggersBefore ph = 1 := by
  cases ph with
  | one => exact .inl ⟨rfl, rfl⟩
  | two => exact .inr ⟨rfl, rfl⟩

theorem State.WrcmdAt.polling (h : s.WrcmdAt p cw start (writesBefore s.ph) (triggersBefore s.ph))
    (hst : s.st = .poll) : s.WrcmdKept p cw start := by
  refine .inl ⟨by simp [hst], ?_⟩
  rw [hst]
  exact h

/-- A sample ends the command without a write of its phase, ends the poll, or asks for another. -/
theorem State.WrcmdAt.pollStep
    (h : s.WrcmdAt p cw start (writesBefore s.ph) (triggersBefore s.ph)) (hst : s.st = .poll)
    (v : Byte) : (State.pollStep (State.goto .sel) v s).WrcmdKept p cw start := by
  have behind := writesBefore_cases s.ph
  have counted : triggersBefore s.ph = writesBefore s.ph / 3 := by omega
  have bound : writesBefore s.ph ≤ 6 := by omega
  have between : writesBefore s.ph = 0 ∨ writesBefore s.ph = 3 := by omega
  have ended := counted ▸ h
  obtain ⟨-, -, unresponsive⟩ | ⟨-, ⟨-, -, success⟩ | ⟨-, ⟨-, -, timeout⟩ | ⟨-, again⟩⟩⟩ :=
    State.pollStep_cases (State.goto .sel) v s
  · rw [unresponsive]
    refine State.WrcmdAt.raise ?_ .deviceUnresponsive bound between
    exact ended.congr _ rfl rfl rfl rfl rfl rfl
  · rw [success]
    exact State.WrcmdAt.goto (h.congr _ rfl rfl rfl rfl rfl rfl) nofun
  · rw [timeout]
    refine State.WrcmdAt.raise ?_ .timeout bound between
    exact ended.congr _ rfl rfl rfl rfl rfl rfl
  · rw [again]
    exact State.WrcmdAt.polling (h.congr _ rfl rfl rfl rfl rfl rfl) hst

/-- The trigger of phase 1 leads to the second poll, that of phase 2 to the end with OK. -/
theorem State.WrcmdAt.phaseEnds
    (h : s.WrcmdAt p cw start (writesBefore s.ph + 3) (triggersBefore s.ph + 1)) :
    (State.phaseEnds s).WrcmdKept p cw start := by
  cases hph : s.ph with
  | one =>
    rw [State.phaseEnds_one hph]
    rw [hph] at h
    exact .inl ⟨nofun, h.host, h.cfg, h.latched, h.issued, h.trace⟩
  | two =>
    rw [State.phaseEnds_two hph]
    rw [hph] at h
    exact .inr ⟨6, h.host, rfl, rfl, h.issued, h.trace, le_rfl, rfl⟩

/-- An answer to the enabled transaction of a WRCMD. -/
theorem State.WrcmdAt.onAnswer
    (h : s.WrcmdAt p cw start (writesBefore s.ph + writesMade s.st) (triggersBefore s.ph))
    (hop : s.op = opWrcmd) (hbusy : s.st ≠ .idle) (hlegal : pcLegal s.op s.st s.ph = true)
    {req : Request} (hreq : s.request = some req) (v : Word) :
    (State.onAnswer s.op s.st v (State.record req (req.okReply v) true s.ticked)).WrcmdKept
      p cw start := by
  rw [hop, pcLegal_wrcmd_iff] at hlegal
  obtain hst | hst | hwrite := hlegal
  · exact absurd hst hbusy
  · rw [s.request_wrcmd_poll hop hst] at hreq
    cases hreq
    rw [hst] at h
    simp only [State.onAnswer, hst, hop, if_true]
    let sample := Request.read .byte s.addr s.cfg.ctrlOff
    let u := State.record sample (sample.okReply v) true s.ticked
    have made : u.WrcmdAt p cw start (writesBefore u.ph) (triggersBefore u.ph) :=
      h.ticked.record_noWrite rfl true
    exact made.pollStep hst _
  · rw [s.request_wrcmd_write hop hwrite] at hreq
    have made := State.WrcmdAt.record_write (s := s.ticked) h.ticked hreq v
    obtain hst | hst | hst := hwrite
    · rw [hst] at made ⊢
      exact State.WrcmdAt.goto (x := .dat) made nofun
    · rw [hst] at made ⊢
      exact State.WrcmdAt.goto (x := .ctl) made nofun
    · rw [hst] at made
      simp only [State.onAnswer, hst, hop, if_true]
      exact State.WrcmdAt.phaseEnds made.countIssue

/-- Under a host that gives nothing more, every step keeps it. -/
theorem State.WrcmdKept.step (hcw : opField cw = opWrcmd) (h : s.WrcmdKept p cw start)
    (hstep : step s = .next t) : t.WrcmdKept p cw start := by
  have host : s.HostDone := h.elim (fun ⟨_, going⟩ => going.host) (fun ⟨_, ended⟩ => ended.host)
  have ⟨⟨rst, _⟩, noOffer⟩ := host
  obtain ⟨-, ⟨reset, -⟩ | ⟨-, ⟨idle, -, wait⟩ | ⟨-, offer, -⟩ | ⟨-, offer, -⟩ |
    ⟨busy, legal, req, hreq, ⟨-, pending⟩ | ⟨-, -, failed⟩ | ⟨-, -, answered⟩⟩⟩⟩ :=
      step_cases s t hstep
  · exact absurd reset (by simp [rst])
  · obtain ⟨busy, -⟩ | ⟨k, -, -, valid, issued, trace, bound, outcome⟩ := h
    · exact absurd idle busy
    · subst wait
      exact .inr ⟨k, host.advance, idle, valid, issued, trace, bound, outcome⟩
  · exact absurd offer (by simp [noOffer])
  · exact absurd offer (by simp [noOffer])
  all_goals obtain ⟨-, going⟩ := h.resolve_right fun ⟨_, ended⟩ => busy ended.idle
  · subst pending
    exact .inl ⟨busy, going.ticked⟩
  · subst failed
    have made : writesMade s.st < 3 := by cases s.st <;> decide
    have behind := writesBefore_cases s.ph
    have counted : triggersBefore s.ph = (writesBefore s.ph + writesMade s.st) / 3 := by omega
    rw [counted] at going
    exact (going.ticked.record_noWrite (completedWrites_fail req) _).raise .accessFailure
      (by omega) (show _ < _ by omega)
  · have hop : s.op = opWrcmd := by rw [← hcw, ← going.latched, s.opField_latchedWord]
    subst answered
    exact going.onAnswer hop busy legal hreq _

end

end Machine

/-- Settles O36: by the invariant `State.WrcmdKept`, from the step that accepts the command on. -/
theorem failedWrcmdIsAnExactFirstPart : Obligations.FailedWrcmdIsAnExactFirstPart := by
  intro s t n d b0 b1 b2 x y z h hn hrun hend
  obtain ⟨n, rfl⟩ := Nat.exists_eq_succ_of_ne_zero hn.ne'
  obtain ⟨u, hstep, hrest⟩ := run_succ_eq_next_iff.mp hrun
  rw [h.step] at hstep
  cases hstep
  have start : (State.acceptCommand (.wrcmd d b0 b1 b2 x y z) s).WrcmdKept s.cfg
      (encode (.wrcmd d b0 b1 b2 x y z)) s.trace :=
    .inl ⟨nofun, h.hostDone, rfl, rfl, rfl, .refl s.trace⟩
  obtain ⟨busy, -⟩ | ⟨k, -, -, valid, issued, ⟨l, trace, writes⟩, bound, outcome⟩ :=
    run_keeps (fun s t => State.WrcmdKept.step (by simp [encode])) start hrest
  · exact absurd hend busy
  have six : sixWrites s.cfg (encode (.wrcmd d b0 b1 b2 x y z)) =
      Machine.wrcmdWrites s.cfg d.bits (internalRegisterNumber b0 b1 b2) x y z := by
    rw [sixWrites, phaseWrites_encode_one, phaseWrites_encode_two]
    rfl
  have six_length : (sixWrites s.cfg (encode (.wrcmd d b0 b1 b2 x y z))).length = 6 :=
    sixWrites_length
  have counted : t.issued.toNat = k / 3 := by
    rw [issued, BitVec.toNat_ofNat]
    omega
  refine ⟨l, trace, ?_⟩
  rw [← six, writes]
  refine ⟨List.take_prefix _ _, valid, counted.trans (triggers_sixWrites bound).symm, ?_, ?_, ?_⟩
  · intro ended
    have between : k = 0 ∨ k = 3 := by
      obtain ended | ended := ended
      all_goals rwa [ended] at outcome
    obtain rfl | rfl := between
    · exact .inl ⟨issued, rfl⟩
    · exact .inr ⟨issued, rfl⟩
  · intro ended
    have cut : k < 6 := by rwa [ended] at outcome
    omega
  · rw [List.take_eq_self_iff, six_length]
    refine ⟨fun ok => ?_, fun all => ?_⟩
    · rw [ok] at outcome
      exact outcome.ge
    · exact outcome_six (Nat.le_antisymm bound all ▸ outcome)

end Sys2Proof
end

section
/-! PROOFS. The composed write (41_issuer.md R93, 95_test_vectors.md P6): WAITWR, ISSUEWR, WAITWR,
ISSUEWR have the trace of a WRCMD whose two polls succeed. -/

namespace Sys2Proof

open Config Machine

namespace Machine

/-! ## What the trace of a run says about the run -/

/-- Two runs from the same state, of which the second is longer. -/
theorem run_rest {m n : Nat} {s t u : State} (h : Host.Core.run Sys2Proof.core m s = .next t)
    (h' : Host.Core.run Sys2Proof.core (m + n) s = .next u) :
    Host.Core.run Sys2Proof.core n t = .next u := by
  induction m generalizing s with
  | zero =>
    cases h
    rwa [Nat.zero_add] at h'
  | succ m ih =>
    obtain ⟨r, hstep, hrun⟩ := run_succ_eq_next_iff.mp h
    rw [Nat.add_right_comm] at h'
    obtain ⟨r', hstep', hrun'⟩ := run_succ_eq_next_iff.mp h'
    cases hstep.symm.trans hstep'
    exact ih hrun hrun'

/-- No step takes anything from the trace. -/
theorem step_trace_prefix {s t : State} (h : step s = .next t) : s.trace <+: t.trace := by
  obtain ⟨trace, -⟩ | ⟨-, req, -, ⟨-, trace⟩ | ⟨-, trace⟩⟩ := stepRecordsTheEnabledTransaction s t h
  · rw [trace]
  all_goals
    rw [trace]
    exact List.prefix_append ..

theorem run_trace_prefix {n : Nat} {s t : State}
    (h : Host.Core.run Sys2Proof.core n s = .next t) : s.trace <+: t.trace :=
  run_keeps (P := fun u => s.trace <+: u.trace)
    (fun _ _ hu hstep => hu.trans (step_trace_prefix hstep)) (List.prefix_refl _) h

/-- In IDLE, under a host that gives nothing more, nothing happens. -/
theorem idle_run_trace {n : Nat} {s t : State} (idle : s.st = .idle) (host : s.HostDone)
    (h : Host.Core.run Sys2Proof.core n s = .next t) : t.trace = s.trace := by
  suffices t.st = .idle ∧ t.HostDone ∧ t.trace = s.trace from this.2.2
  refine run_keeps (P := fun u => u.st = .idle ∧ u.HostDone ∧ u.trace = s.trace) ?_
    ⟨idle, host, rfl⟩ h
  rintro u v ⟨idle, host, trace⟩ hstep
  have ⟨⟨rst, _⟩, noOffer⟩ := host
  obtain ⟨-, ⟨reset, -⟩ | ⟨-, ⟨-, -, rfl⟩ | ⟨-, offer, -⟩ | ⟨-, offer, -⟩ | ⟨busy, -⟩⟩⟩ :=
    step_cases u v hstep
  · exact absurd reset (by simp [rst])
  · exact ⟨idle, host.advance, trace⟩
  · exact absurd offer (by simp [noOffer])
  · exact absurd offer (by simp [noOffer])
  · exact absurd idle busy

section

variable {n : Nat} {s t : State} (hrun : Host.Core.run Sys2Proof.core n s = .next t)
include hrun

/-- A run that adds to the trace starts with a step. -/
theorem run_first_step (longer : s.trace.length < t.trace.length) :
    ∃ u m, step s = .next u ∧ Host.Core.run Sys2Proof.core m u = .next t := by
  cases n with
  | zero =>
    cases hrun
    exact absurd longer (Nat.lt_irrefl _)
  | succ m =>
    obtain ⟨u, hstep, hrest⟩ := run_succ_eq_next_iff.mp hrun
    exact ⟨u, m, hstep, hrest⟩

theorem not_idle_of_longer (longer : s.trace.length < t.trace.length) (host : s.HostDone) :
    s.st ≠ .idle := by
  intro idle
  rw [idle_run_trace idle host hrun] at longer
  exact Nat.lt_irrefl _ longer

/-- The next entry of the trace is the enabled transaction, where that is answered. -/
theorem next_entry {x : Transaction} (hx : s.trace ++ [x] <+: t.trace)
    (hwf : s.cfg.wellFormed = true) (hrst : s.host.rst = false) {req : Request}
    (hreq : s.request = some req) {w : Word} {rest : List AccPort}
    (henv : s.env = answerOk w :: rest) : x.req = req := by
  obtain ⟨u, m, hstep, hrest⟩ := run_first_step hrun (by simpa using hx.length_le)
  cases hstep.symm.trans (step_answer_of_env hwf hrst hreq henv)
  have hy : s.trace ++ [⟨req, req.okReply s.accPort.rdata⟩] <+: t.trace := by
    have kept := run_trace_prefix hrest
    rwa [State.onAnswer_trace] at kept
  have same := (List.prefix_of_prefix_length_le hx hy (by simp)).eq_of_length (by simp)
  exact congrArg Transaction.req (List.singleton_inj.mp (List.append_cancel_left same))

end

/-- A WRCMD whose trace has the samples `l` and then something else has a poll that succeeds with the
last of these samples. -/
theorem succeedsOn_of_trace {n : Nat} {l : List Byte} {s t : State} (h : s.Polling)
    (hop : s.op = opWrcmd) (host : s.HostDone) {w : Word} {rest : List AccPort}
    (henv : s.env = l.map sampleOf ++ answerOk w :: rest)
    (hrun : Host.Core.run Sys2Proof.core n s = .next t) {x : Transaction}
    (hx : s.trace ++ l.map (sampleEntry s.cfg s.addr) ++ [x] <+: t.trace)
    (other : x.req ≠ .read .byte s.addr s.cfg.ctrlOff) : s.SucceedsOn l := by
  induction l generalizing s n with
  | nil =>
    rw [List.map_nil, List.append_nil] at hx
    exact other (next_entry hrun hx h.wf host.1.1 (State.request_poll h.st h.legal) henv)
  | cons v l ih =>
    have trace : s.withSample.trace ++ l.map (sampleEntry s.cfg s.addr) ++ [x] <+: t.trace := by
      rw [(State.recorded_withSample henv).1]
      simpa using hx
    have longer : s.withSample.trace.length < t.trace.length :=
      Nat.lt_of_lt_of_le (by simp) trace.length_le
    have notEnded {y : State} {m : Nat} (hrest : Host.Core.run Sys2Proof.core m y = .next t)
        (htrace : y.trace = s.withSample.trace) (hhost : y.host = s.nextHost false)
        (hnext : y.hostNext = s.hostNext.tail) : y.st ≠ .idle :=
      not_idle_of_longer hrest (htrace ▸ longer) (host.of_next hhost hnext)
    obtain ⟨u, m, hstep, hrest⟩ := run_first_step hrun
      (Nat.lt_of_le_of_lt (by simp) longer)
    obtain ⟨-, limit⟩ | ⟨notLimit, ⟨confirms, success⟩ | ⟨notConfirms, ⟨-, budget⟩ |
      ⟨notBudget, again⟩⟩⟩ := h.step_cases host.1.1 henv
    · cases hstep.symm.trans limit
      exact absurd (State.raise_st ..) (notEnded hrest (by simp) (by simp) (by simp))
    · refine ⟨notLimit, .inl ⟨?_, confirms⟩⟩
      rw [if_pos hop] at success
      cases hstep.symm.trans success
      cases l with
      | nil => rfl
      | cons v' l =>
        let y := State.goto .sel (State.sampled v s.withSample)
        have op : y.op = opWrcmd := hop
        have request : y.request = some (.write .word y.addr y.cfg.selOff y.selector) :=
          y.request_legal (by rw [op, pcLegal_wrcmd_iff]; exact .inr (.inr (.inl rfl)))
        have env : y.env = sampleOf v' :: (l.map sampleOf ++ answerOk w :: rest) := by
          rw [State.goto_env, State.sampled_env, State.answered_env, henv]
          rfl
        have first : y.trace ++ [sampleEntry s.cfg s.addr v'] <+: t.trace :=
          List.IsPrefix.trans (by simp [y]) trace
        have sampledHost : y.HostDone := host.of_next (by simp [y]) (by simp [y])
        exact absurd (next_entry hrest first h.wf sampledHost.1.1 request env) nofun
    · cases hstep.symm.trans budget
      exact absurd (State.raise_st ..) (notEnded hrest (by simp) (by simp) (by simp))
    · cases hstep.symm.trans again
      have cfg : (State.pollOn v s.withSample).cfg = s.cfg := State.pollOn_cfg ..
      obtain ⟨op, addr, -⟩ := (State.recorded_pollOn henv).latches
      refine ⟨notLimit, .inr ⟨notConfirms, notBudget, ih (h.pollOn notLimit notBudget)
        (op.trans hop) host.pollOn ?_ hrest ?_ ?_⟩⟩
      · rw [State.pollOn_env, State.answered_env, henv]
        rfl
      · rwa [cfg, addr, State.pollOn_trace]
      · rwa [cfg, addr]

/-! ## Polls with the same mask -/

/-- The polls of two commands have the same mask, limits and poll state. -/
structure State.SamePoll (s c : State) : Prop where
  cfg : c.cfg = s.cfg
  mask : busyMask s.cfg c.op = busyMask s.cfg s.op
  rounds : c.rounds = s.rounds
  ffc : c.ffc = s.ffc
  prevIdle : c.prevIdle = s.prevIdle

section

variable {s c : State} (h : s.SamePoll c) (v : Byte)
include h

theorem State.SamePoll.idleSample : c.IdleSample v ↔ s.IdleSample v := by
  rw [State.IdleSample, State.IdleSample, h.cfg, h.mask]

theorem State.SamePoll.meetsLimit : c.MeetsLimit v ↔ s.MeetsLimit v := by
  rw [State.MeetsLimit, State.MeetsLimit, h.cfg, h.ffc]

theorem State.SamePoll.confirmsIdle : c.ConfirmsIdle v ↔ s.ConfirmsIdle v := by
  rw [State.ConfirmsIdle, State.ConfirmsIdle, h.idleSample, h.prevIdle]

theorem State.SamePoll.usesBudget : c.UsesBudget v ↔ s.UsesBudget v := by
  rw [State.UsesBudget, State.UsesBudget, h.idleSample, h.cfg, h.rounds, h.prevIdle]

theorem State.SamePoll.pollOn :
    (State.pollOn v s.withSample).SamePoll (State.pollOn v c.withSample) := by
  obtain ⟨cfg, mask, rounds, ffc, prevIdle⟩ := h
  constructor
  · simpa using cfg
  · simpa using mask
  · exact if_congr (by simp [cfg, prevIdle]) (congrArg (· + 1) rounds) rounds
  · exact if_congr (by simp [cfg]) (congrArg (· + 1) ffc) ffc
  · exact decide_eq_decide.mpr (by simp [cfg, mask])

end

theorem State.SucceedsOn.congr {l : List Byte} {s c : State} (h : s.SamePoll c)
    (succeeds : s.SucceedsOn l) : c.SucceedsOn l := by
  induction l generalizing s c with
  | nil => exact succeeds
  | cons v l ih =>
    rw [State.SucceedsOn] at succeeds ⊢
    rw [h.meetsLimit, h.confirmsIdle, h.usesBudget]
    exact succeeds.imp_right (Or.imp_right (And.imp_right (And.imp_right (ih (h.pollOn v)))))

/-! ## The composed host -/

/-- From `s` to `t` the transactions `l` were answered without failure, within any commands. -/
def State.Made (l : List Transaction) (s t : State) : Prop :=
  t.trace = s.trace ++ l ∧ t.written = bytesAfter l s.written ∧ t.env = s.env.drop l.length ∧
    t.cfg = s.cfg

theorem State.Made.trans {l l' : List Transaction} {s t u : State} (h : t.Made l' u)
    (h' : s.Made l t) : s.Made (l ++ l') u := by
  obtain ⟨trace, written, env, cfg⟩ := h
  obtain ⟨trace', written', env', cfg'⟩ := h'
  refine ⟨?_, ?_, ?_, cfg.trans cfg'⟩
  · rw [trace, trace', List.append_assoc]
  · rw [written, written', bytesAfter, bytesAfter, bytesAfter, List.foldl_append]
  · rw [env, env', List.drop_drop, List.length_append]

/-- `Accept` makes no transaction. -/
theorem State.Recorded.made {l : List Transaction} {i : Instr} {s t : State}
    (h : (State.acceptCommand i s).Recorded l t) : s.Made l t := by
  obtain ⟨trace, written, env, cfg, -⟩ := h
  exact ⟨by simpa using trace, by simpa using written, by simpa using env, by simpa using cfg⟩

/-- The port of a host that offers `i`. -/
def HostPort.give (i : Instr) : HostPort := ⟨false, true, encode i⟩

/-- The host is quiet for `n` steps and then shows `p` and what is in `rest`. -/
def Scripted (p : HostPort) (rest : List HostPort) (n : Nat) (s : State) : Prop :=
  s.host :: s.hostNext = List.replicate n HostPort.quiet ++ p :: rest

theorem scripted_of_next {p : HostPort} {rest : List HostPort} {n : Nat} {s t : State}
    {taken : Bool}
    (hhost : t.host = s.nextHost taken) (hnext : t.hostNext = s.hostNext.tail)
    (h : s.hostNext = List.replicate n HostPort.quiet ++ p :: rest) : Scripted p rest n t := by
  rw [Scripted, hhost, hnext, State.nextHost]
  cases hs : s.hostNext with
  | nil => simp [hs] at h
  | cons q l => rw [← h, hs, List.tail_cons]

theorem hostPlan_scripted (p : HostPort) (rest : List HostPort) : HostPlan (Scripted p rest) where
  low n s h := by
    obtain ⟨host, -⟩ := List.cons.inj h
    rw [host]
    rfl
  next n s t h hhost hnext := scripted_of_next hhost hnext (List.cons.inj h).2
  congr n s t h hhost hnext := by rwa [Scripted, hhost, hnext]

/-- A host that drives `rst` no more. -/
def LowHost (s : State) : Prop := s.host.rst = false ∧ ∀ p ∈ s.hostNext, p.rst = false

theorem lowHost_of_next {s t : State} {taken : Bool} (h : ∀ p ∈ s.hostNext, p.rst = false)
    (hhost : t.host = s.nextHost taken) (hnext : t.hostNext = s.hostNext.tail) : LowHost t := by
  refine ⟨?_, fun p hp => h p (List.mem_of_mem_tail (hnext ▸ hp))⟩
  rw [hhost, State.nextHost]
  cases hs : s.hostNext with
  | nil => rfl
  | cons q l => exact h q (by simp [hs])

theorem hostPlan_low : HostPlan fun _ => LowHost where
  low _ _ h := h.1
  next _ _ _ h := lowHost_of_next h.2
  congr _ _ _ h hhost hnext := by rwa [LowHost, hhost, hnext]

section

variable {H : Nat → State → Prop} (plan : HostPlan H) {k : Nat} {i : Instr} {s : State}
  (hwf : s.cfg.wellFormed = true) (hst : s.st = .idle) (hhost : s.host = HostPort.give i)
include hwf hst hhost

theorem step_give : step s = .next (State.acceptCommand i s) :=
  step_accept s i hwf (by rw [hhost]; rfl) hst (by rw [hhost]; rfl)
    (by rw [hhost]; exact decodeOfEncodeIsIdentity i)

include plan

/-- A WAITWR of the composed host, where its poll succeeds. -/
theorem wait_composed {d : DevAddr} (hi : i = .waitwr d 0 0 0 0) {l : List Byte}
    (host : H (k + l.length) (State.acceptCommand i s)) {rest : List AccPort}
    (henv : s.env = l.map sampleOf ++ rest) (succeeds : (State.acceptCommand i s).SucceedsOn l) :
    ∃ u : State, Host.Core.run Sys2Proof.core (1 + l.length) s = .next u ∧ u.st = .idle ∧
      s.Made (l.map (sampleEntry s.cfg d.bits)) u ∧ H k u := by
  subst hi
  have polling : (State.acceptCommand (.waitwr d 0 0 0 0) s).Polling :=
    State.enterPoll_polling hwf rfl
  obtain ⟨u, hrun, hrec, host', -⟩ := poll_run plan l polling host henv succeeds
  exact ⟨State.complete u, run_add (run_one (step_give hwf hst hhost)) hrun, rfl,
    hrec.complete.made, plan.congr _ _ _ host' rfl rfl⟩

/-- An ISSUEWR of the composed host. -/
theorem issue_composed {d : DevAddr} {x y : Word} (hi : i = .issuewr d x y 0 0)
    (host : H (k + 3) (State.acceptCommand i s)) {p q w : Word} {rest : List AccPort}
    (henv : s.env = answerOk p :: answerOk q :: answerOk w :: rest) :
    ∃ u : State, Host.Core.run Sys2Proof.core (1 + 3) s = .next u ∧ u.st = .idle ∧ u.status = .ok ∧
      s.Made ((issueWrites s.cfg d.bits x y s.cfg.writeBusy).map doneWrite) u ∧ H k u := by
  subst hi
  obtain ⟨u, hrun, hrec, host', -⟩ := issue_run plan
    (s := State.acceptCommand (.issuewr d x y 0 0) s) hwf rfl rfl host henv
  exact ⟨State.complete (State.countIssue u),
    run_add (run_one (step_give hwf hst hhost)) hrun, rfl, rfl,
    hrec.countIssue.complete.made, plan.congr _ _ _ host' rfl rfl⟩

end

/-! ## The polls of the WRCMD -/

/-- Every WAITWR with the parameters `p` takes the samples `l` and succeeds with the last of them. -/
def WaitSucceedsOn (p : Params) (l : List Byte) : Prop :=
  ∀ c : State, c.FreshCounts → c.cfg = p → c.op = opWaitwr → c.SucceedsOn l

/-- A WAITWR succeeds where a poll of a WRCMD does (R93). -/
theorem State.SucceedsOn.wait {l : List Byte} {s : State} (succeeds : s.SucceedsOn l)
    (fresh : s.FreshCounts) (hop : s.op = opWrcmd) : WaitSucceedsOn s.cfg l := by
  intro c fresh' hcfg hop'
  obtain ⟨rounds, ffc, prevIdle⟩ := fresh
  obtain ⟨rounds', ffc', prevIdle'⟩ := fresh'
  exact succeeds.congr ⟨hcfg, by rw [hop, hop']; rfl, rounds'.trans rounds.symm,
    ffc'.trans ffc.symm, prevIdle'.trans prevIdle.symm⟩

/-- The answers left after the samples and the three writes of a phase. -/
theorem drop_phase {env rest : List AccPort} {l : List Byte} {p q r : Word} {n : Nat}
    (henv : env = l.map sampleOf ++ answerOk p :: answerOk q :: answerOk r :: rest)
    (hn : n = l.length + 3) : env.drop n = rest := by
  have split : env = (l.map sampleOf ++ [answerOk p, answerOk q, answerOk r]) ++ rest := by
    simp [henv]
  rw [split]
  exact List.drop_left' (by simp [hn])

/-- What the trace of a WRCMD says about its two polls, and what the WRCMD then has made. -/
theorem wrcmd_succeeds_of_trace {s t : State} {d : DevAddr} {b0 b1 b2 : Byte} {x y z : Word}
    {l1 l2 : List Byte} {p1 p2 p3 p4 p5 p6 : Word} {rest : List AccPort}
    (h : s.Offers (.wrcmd d b0 b1 b2 x y z))
    (henv : s.env = l1.map sampleOf ++ answerOk p1 :: answerOk p2 :: answerOk p3 ::
      (l2.map sampleOf ++ answerOk p4 :: answerOk p5 :: answerOk p6 :: rest))
    (hrun : Host.Core.run Sys2Proof.core (l1.length + l2.length + 7) s = .next t)
    {l : List Transaction} (hl : l = l1.map (sampleEntry s.cfg d.bits) ++
      (issueWrites s.cfg d.bits ((internalRegisterNumber b0 b1 b2).setWidth 32) x
        s.cfg.writeBusy).map doneWrite ++
      (l2.map (sampleEntry s.cfg d.bits) ++
        (issueWrites s.cfg d.bits y z s.cfg.writeBusy).map doneWrite))
    (htrace : t.trace = s.trace ++ l) :
    WaitSucceedsOn s.cfg l1 ∧ WaitSucceedsOn s.cfg l2 ∧ s.Made l t := by
  obtain ⟨polling1, fresh1⟩ := h.polling (.inr (.inr rfl))
  have accepted := run_rest (run_one h.step) (n := l1.length + l2.length + 6)
    (by rwa [show 1 + (l1.length + l2.length + 6) = l1.length + l2.length + 7 by omega])
  have succeeds1 := succeedsOn_of_trace (l := l1) polling1 rfl h.hostDone henv accepted
    (x := doneWrite (.write .word d.bits s.cfg.selOff
      ((internalRegisterNumber b0 b1 b2).setWidth 32)))
    (by
      rw [htrace, hl]
      simp [issueWrites, State.acceptCommand]) nofun
  obtain ⟨u, hrun1, hrec1, polling2, fresh2, host2, op2, ph2, -⟩ := wrcmd_phase_one h henv succeeds1
  obtain ⟨-, (addr : u.addr = d.bits), -⟩ := hrec1.latches
  obtain ⟨trace, -, env, cfg, latched⟩ := id hrec1
  have henv2 := env.trans (drop_phase henv (by simp [phaseWrites, issueWrites]))
  have rest2 := run_rest hrun1 (n := l2.length + 3)
    (by rwa [show 1 + (l1.length + 3) + (l2.length + 3) = l1.length + l2.length + 7 by omega])
  have succeeds2 := succeedsOn_of_trace (l := l2) polling2 op2 host2 henv2 rest2
    (x := doneWrite (.write .word d.bits s.cfg.selOff y))
    (by
      rw [htrace, hl, trace, phaseWrites_encode_one, cfg, addr]
      simp [issueWrites]) nofun
  obtain ⟨t', hrun2, hrec2, -⟩ := wrcmd_phase_two polling2 op2 host2 ph2 henv2 succeeds2
  cases rest2.symm.trans hrun2
  rw [cfg, addr, latched, State.acceptCommand_latchedWord] at hrec2
  have made := (hrec2.trans hrec1).made
  rw [State.acceptCommand_cfg, phaseWrites_encode_one, phaseWrites_encode_two, ← hl] at made
  exact ⟨succeeds1.wait fresh1 rfl, cfg ▸ succeeds2.wait fresh2 op2, made⟩

/-- One half of the composed write: a WAITWR whose poll succeeds, then an ISSUEWR; `after` is what the
host shows from there on. -/
theorem composed_half {H : Nat → State → Prop} (plan : HostPlan H) {k : Nat} {s : State}
    (hwf : s.cfg.wellFormed = true) (hst : s.st = .idle) {d : DevAddr} {x y : Word} {l : List Byte}
    {after : List HostPort} (hhost : s.host = HostPort.give (.waitwr d 0 0 0 0))
    (hnext : s.hostNext = List.replicate l.length HostPort.quiet ++
      HostPort.give (.issuewr d x y 0 0) :: after)
    (hafter : ∀ u : State, u.hostNext = after →
      H (k + 3) (State.acceptCommand (.issuewr d x y 0 0) u))
    {p q w : Word} {rest : List AccPort}
    (henv : s.env = l.map sampleOf ++ answerOk p :: answerOk q :: answerOk w :: rest)
    (succeeds : WaitSucceedsOn s.cfg l) :
    ∃ u : State, Host.Core.run Sys2Proof.core (1 + l.length + (1 + 3)) s = .next u ∧ u.st = .idle ∧
      u.status = .ok ∧ H k u ∧
      s.Made (l.map (sampleEntry s.cfg d.bits) ++
        (issueWrites s.cfg d.bits x y s.cfg.writeBusy).map doneWrite) u := by
  obtain ⟨t, hrun, hst', made, host⟩ := wait_composed
    (hostPlan_scripted (HostPort.give (.issuewr d x y 0 0)) after) (k := 0) hwf hst hhost rfl
    (by rw [Nat.zero_add]; exact scripted_of_next rfl rfl hnext) henv
    (succeeds _ (State.enterPoll_freshCounts _) rfl rfl)
  obtain ⟨hhost', hnext'⟩ := List.cons.inj host
  obtain ⟨-, -, env, cfg⟩ := id made
  rw [henv, List.length_map, List.drop_left' (List.length_map _)] at env
  obtain ⟨u, hrun', hst'', hstatus, made', host'⟩ := issue_composed plan (cfg ▸ hwf) hst' hhost' rfl
    (hafter t hnext') env
  rw [cfg] at made'
  exact ⟨u, run_add hrun hrun', hst'', hstatus, host', made'.trans made⟩

end Machine

/-- Settles O37: the samples that the two polls of the WRCMD succeed on end the two WAITWR with
success, and each ISSUEWR makes the writes of its phase. -/
theorem composedWriteHasTheTraceOfWrcmd : Obligations.ComposedWriteHasTheTraceOfWrcmd := by
  intro s t d b0 b1 b2 x y z l1 l2 p1 p2 p3 p4 p5 p6 rest h henv writes1 writes2 hrun htrace give
    quiet wait first second composed
  obtain ⟨wait1, wait2, trace, written, env, -⟩ :=
    wrcmd_succeeds_of_trace h henv hrun rfl (htrace.trans (by simp [writes1, writes2]))
  obtain ⟨hwf, hst, -⟩ := h
  obtain ⟨u, hrun1, hst1, -, host1, made1⟩ := composed_half
    (hostPlan_scripted (give wait) (quiet l2.length ++ give second :: quiet 3)) (k := 0)
    (s := composed) hwf hst rfl (by simp [composed, quiet, give, HostPort.give]; rfl)
    (fun u hu => scripted_of_next (n := 3) rfl rfl hu) henv wait1
  obtain ⟨hhost, hnext⟩ := List.cons.inj host1
  obtain ⟨-, -, env1, cfg1⟩ := id made1
  have answers := env1.trans (drop_phase henv (by simp [Machine.issueWrites]))
  have quietAfter (w : State) (hw : w.hostNext = quiet 3) : ∀ p ∈ w.hostNext, p.rst = false := by
    rw [hw]
    exact fun p hp => List.eq_of_mem_replicate hp ▸ rfl
  obtain ⟨v, hrun2, hst2, hstatus, -, made2⟩ := composed_half hostPlan_low (k := 0) (cfg1 ▸ hwf)
    hst1 hhost hnext (fun w hw => lowHost_of_next (quietAfter w hw)
      (State.acceptCommand_host ..) (State.acceptCommand_hostNext ..)) answers (cfg1 ▸ wait2)
  rw [cfg1] at made2
  obtain ⟨trace', written', env', -⟩ := made2.trans made1
  have run : Host.Core.run Sys2Proof.core (l1.length + l2.length + 10) composed = .next v := by
    have steps : l1.length + l2.length + 10 =
        1 + l1.length + (1 + 3) + (1 + l2.length + (1 + 3)) := by omega
    rw [steps]
    exact run_add hrun1 hrun2
  exact ⟨v, run, trace'.trans trace.symm, written'.trans written.symm, env'.trans env.symm, hst2,
    hstatus⟩

end Sys2Proof
end
